-- ==== Sys2Proof/Word.lean ====
section
/-! DEFINITION. The two word types of the machine: a memory cell is one byte, an address is 16 bits
(00_scope.md R5). Everything computed from them (assembly, pages, sign extension) stands in Machine/Bits.lean. -/

namespace Sys2Proof

/-- One byte of 8 bits (R5). -/
abbrev Byte := BitVec 8

/-- One 16-bit address of the one address space (R5, 10_state.md R19). -/
abbrev Addr := BitVec 16

end Sys2Proof
end

