-- ==== Sys2Proof/Machine/Bits.lean ====
section
/-! DEFINITION. Byte order, pages and extension (00_scope.md R7, R8; 20_memory.md R48; 30_encoding.md R64). -/

namespace Sys2Proof.Machine

/-- `zext_16(b)`: the page-0 address of a byte. -/
def zext16 (b : Byte) : Addr := b.setWidth 16

/-- `sext_8(b)` as an offset added to a 16-bit address. -/
def sext16 (b : Byte) : Addr := b.signExtend 16

/-- The 16-bit value whose low byte is `lo` and whose high byte is `hi`: `(hi << 8) | lo`. -/
def word (lo hi : Byte) : Addr := hi ++ lo

/-- The low byte of a 16-bit value. -/
def lowByte (w : Addr) : Byte := w.setWidth 8

/-- The high byte of a 16-bit value. -/
def highByte (w : Addr) : Byte := (w >>> 8).setWidth 8

/-- `page(a) = a[15:8]` (00_scope.md R7). -/
def page (w : Addr) : Byte := highByte w

/-- The stack byte address `0x0100 | SP` (10_state.md R11). -/
def stackAddr (sp : Byte) : Addr := word sp 0x01

/-- The byte with bit `n` set and all others clear: `1 << n`. -/
def bitMask (n : Nat) : Byte := 1#8 <<< n

/-- An address `a` moved on by `k`, modulo 65536 (10_state.md R12). -/
def offsetAddr (a : Addr) (k : Nat) : Addr := a + BitVec.ofNat 16 k

end Sys2Proof.Machine
end

