-- ==== Sys2Proof/Config.lean ====
section
/-! DEFINITION. The named parameters of 00_scope.md R6 as types, and the values the spec leaves open as opaque
constants without a body: nothing in Lean can evaluate them, so a theorem holds whatever they are.
The reference values of the closed parameters stand in Machine/Params.lean. -/

namespace Sys2Proof

/-- `BRANCH_PAGE_BASE`: the address whose page is compared with a branch's target (40_addressing_modes.md R106,
47_branch.md R262). -/
inductive BranchPageBase where
  | opcodeAddress
  | nextInstruction
  deriving DecidableEq, Repr

/-- `BIT_FLAGS`: where BIT takes N from, and what its immediate form writes (43_logic_bit.md R173). -/
inductive BitFlags where
  | w65c02
  | literal
  deriving DecidableEq, Repr

/-- `PULL_B`: whether PLP and RTI write bit 4 of P (49_stack_flags_misc.md R308). -/
inductive PullB where
  | keep
  | load
  deriving DecidableEq, Repr

/-- `WAI_POLICY`: what opcode 0xCB does; the spec gives it one value (30_encoding.md R71). -/
inductive WaiPolicy where
  | refuse
  deriving DecidableEq, Repr

/-- `TERMINAL_RULE`: when the outcome's terminal flag is set (60_exceptions.md R371). -/
inductive TerminalRule where
  | stpOrCpUnchanged
  | literal
  deriving DecidableEq, Repr

/-- `RUN_GUARD`: whether the terminal flag ends an until or while loop (70_reset_and_hazards.md R394). -/
inductive RunGuard where
  | always
  | stpOnlyInLoops
  deriving DecidableEq, Repr

/-- One member of `NOP_SLOTS`: an otherwise unassigned opcode run as a no-operation (30_encoding.md R70). -/
structure NopSlot where
  opcode : Byte
  length : Nat
  cycles : Nat
  deriving DecidableEq, Repr

/-- What an addition or subtraction gives: the byte for A and the four flags it writes
(42_arithmetic.md R150, R153). -/
structure ArithResult where
  result : Byte
  n : Bool
  v : Bool
  z : Bool
  c : Bool
  deriving DecidableEq, Repr, Inhabited

/-- The error kinds of 60_exceptions.md R350, as a peripheral may report one (20_memory.md R36). -/
inductive ErrorKind where
  | unmappedAddress
  | writeToReadOnly
  | overlappingSubsystem
  | unknownOpcode
  | crossBoundaryRead
  deriving DecidableEq, Repr, Inhabited

namespace Config

/-- `DEC_ARITH.adc`: the result of ADC with D = 1, a function of A, the operand and C and of nothing else.
The spec leaves it OPEN (42_arithmetic.md R153, decision D8): a FREE VALUE, assumption log 4. -/
opaque decAdc : Byte → Byte → Bool → ArithResult

/-- `DEC_ARITH.sbc`: the result of SBC with D = 1 (R153, D8): a FREE VALUE, assumption log 4. -/
opaque decSbc : Byte → Byte → Bool → ArithResult

/-- `PERIPHERAL`, read: from the device's number, its private state and the offset, the byte it answers and its
next private state (20_memory.md R36, decision D19): a FREE VALUE, assumption log 5. It may answer an error of the device's
own instead of a byte (60_exceptions.md R351; DESIGN CHOICE between R351 and R36: assumption log 6). -/
opaque periphRead : (device state offset : Nat) → Except ErrorKind Byte × Nat

/-- `PERIPHERAL`, write: from the device's number, its private state, the offset and the byte, an error kind
or none, and with either its next private state (R36, D19): a FREE VALUE, assumption log 5. -/
opaque periphWrite : (device state offset : Nat) → Byte → Option ErrorKind × Nat

/-- The byte that stands at index `i` of a slice's range after a failed `write_slice`, from the memory before, the
slice's address and its bytes: unspecified (20_memory.md R41, U7), a FREE VALUE, assumption log 22. -/
opaque failedSliceByte : (mem : List Host.Cell) → (addr : Addr) → (bytes : List Byte) → (i : Nat) → Byte

/-- The private state of the peripheral at index `i` of a slice's range after a failed `write_slice` (R41, U7): a FREE
VALUE, assumption log 22. -/
opaque failedSliceState : (mem : List Host.Cell) → (addr : Addr) → (bytes : List Byte) → (i : Nat) → Nat

end Config
end Sys2Proof
end

