-- ==== Sys2Proof/Syntax.lean ====
section
/-! DEFINITION. The instruction set as syntax: one constructor per row of spec/opcode_table.json (30_encoding.md R66),
256 rows, named by mnemonic and addressing mode tag, each with the operand bytes its format has (R63).
The rows R70 and R71 leave without an instruction are constructors too, so that decoding names them.
The rows with operand bytes stand first: Lean's runtime gives no constructor with fields a tag above 244. -/

namespace Sys2Proof

inductive Instr where
  -- rows with operand bytes, in table order
  | oraIzx (zp8 : Byte)
  | tsbZp (zp8 : Byte)
  | oraZp (zp8 : Byte)
  | aslZp (zp8 : Byte)
  | rmb0 (zp8 : Byte)
  | oraImm (imm8 : Byte)
  | tsbAbs (lo : Byte) (hi : Byte)
  | oraAbs (lo : Byte) (hi : Byte)
  | aslAbs (lo : Byte) (hi : Byte)
  | bbr0 (zp8 : Byte) (rel8 : Byte)
  | bpl (rel8 : Byte)
  | oraIzy (zp8 : Byte)
  | oraIzp (zp8 : Byte)
  | trbZp (zp8 : Byte)
  | oraZpx (zp8 : Byte)
  | aslZpx (zp8 : Byte)
  | rmb1 (zp8 : Byte)
  | oraAbsy (lo : Byte) (hi : Byte)
  | trbAbs (lo : Byte) (hi : Byte)
  | oraAbsx (lo : Byte) (hi : Byte)
  | aslAbsx (lo : Byte) (hi : Byte)
  | bbr1 (zp8 : Byte) (rel8 : Byte)
  | jsr (lo : Byte) (hi : Byte)
  | andIzx (zp8 : Byte)
  | bitZp (zp8 : Byte)
  | andZp (zp8 : Byte)
  | rolZp (zp8 : Byte)
  | rmb2 (zp8 : Byte)
  | andImm (imm8 : Byte)
  | bitAbs (lo : Byte) (hi : Byte)
  | andAbs (lo : Byte) (hi : Byte)
  | rolAbs (lo : Byte) (hi : Byte)
  | bbr2 (zp8 : Byte) (rel8 : Byte)
  | bmi (rel8 : Byte)
  | andIzy (zp8 : Byte)
  | andIzp (zp8 : Byte)
  | bitZpx (zp8 : Byte)
  | andZpx (zp8 : Byte)
  | rolZpx (zp8 : Byte)
  | rmb3 (zp8 : Byte)
  | andAbsy (lo : Byte) (hi : Byte)
  | bitAbsx (lo : Byte) (hi : Byte)
  | andAbsx (lo : Byte) (hi : Byte)
  | rolAbsx (lo : Byte) (hi : Byte)
  | bbr3 (zp8 : Byte) (rel8 : Byte)
  | eorIzx (zp8 : Byte)
  | eorZp (zp8 : Byte)
  | lsrZp (zp8 : Byte)
  | rmb4 (zp8 : Byte)
  | eorImm (imm8 : Byte)
  | jmpAbs (lo : Byte) (hi : Byte)
  | eorAbs (lo : Byte) (hi : Byte)
  | lsrAbs (lo : Byte) (hi : Byte)
  | bbr4 (zp8 : Byte) (rel8 : Byte)
  | bvc (rel8 : Byte)
  | eorIzy (zp8 : Byte)
  | eorIzp (zp8 : Byte)
  | eorZpx (zp8 : Byte)
  | lsrZpx (zp8 : Byte)
  | rmb5 (zp8 : Byte)
  | eorAbsy (lo : Byte) (hi : Byte)
  | eorAbsx (lo : Byte) (hi : Byte)
  | lsrAbsx (lo : Byte) (hi : Byte)
  | bbr5 (zp8 : Byte) (rel8 : Byte)
  | adcIzx (zp8 : Byte)
  | stzZp (zp8 : Byte)
  | adcZp (zp8 : Byte)
  | rorZp (zp8 : Byte)
  | rmb6 (zp8 : Byte)
  | adcImm (imm8 : Byte)
  | jmpInd (lo : Byte) (hi : Byte)
  | adcAbs (lo : Byte) (hi : Byte)
  | rorAbs (lo : Byte) (hi : Byte)
  | bbr6 (zp8 : Byte) (rel8 : Byte)
  | bvs (rel8 : Byte)
  | adcIzy (zp8 : Byte)
  | adcIzp (zp8 : Byte)
  | stzZpx (zp8 : Byte)
  | adcZpx (zp8 : Byte)
  | rorZpx (zp8 : Byte)
  | rmb7 (zp8 : Byte)
  | adcAbsy (lo : Byte) (hi : Byte)
  | jmpIax (lo : Byte) (hi : Byte)
  | adcAbsx (lo : Byte) (hi : Byte)
  | rorAbsx (lo : Byte) (hi : Byte)
  | bbr7 (zp8 : Byte) (rel8 : Byte)
  | bra (rel8 : Byte)
  | staIzx (zp8 : Byte)
  | styZp (zp8 : Byte)
  | staZp (zp8 : Byte)
  | stxZp (zp8 : Byte)
  | smb0 (zp8 : Byte)
  | bitImm (imm8 : Byte)
  | styAbs (lo : Byte) (hi : Byte)
  | staAbs (lo : Byte) (hi : Byte)
  | stxAbs (lo : Byte) (hi : Byte)
  | bbs0 (zp8 : Byte) (rel8 : Byte)
  | bcc (rel8 : Byte)
  | staIzy (zp8 : Byte)
  | staIzp (zp8 : Byte)
  | styZpx (zp8 : Byte)
  | staZpx (zp8 : Byte)
  | stxZpy (zp8 : Byte)
  | smb1 (zp8 : Byte)
  | staAbsy (lo : Byte) (hi : Byte)
  | stzAbs (lo : Byte) (hi : Byte)
  | staAbsx (lo : Byte) (hi : Byte)
  | stzAbsx (lo : Byte) (hi : Byte)
  | bbs1 (zp8 : Byte) (rel8 : Byte)
  | ldyImm (imm8 : Byte)
  | ldaIzx (zp8 : Byte)
  | ldxImm (imm8 : Byte)
  | ldyZp (zp8 : Byte)
  | ldaZp (zp8 : Byte)
  | ldxZp (zp8 : Byte)
  | smb2 (zp8 : Byte)
  | ldaImm (imm8 : Byte)
  | ldyAbs (lo : Byte) (hi : Byte)
  | ldaAbs (lo : Byte) (hi : Byte)
  | ldxAbs (lo : Byte) (hi : Byte)
  | bbs2 (zp8 : Byte) (rel8 : Byte)
  | bcs (rel8 : Byte)
  | ldaIzy (zp8 : Byte)
  | ldaIzp (zp8 : Byte)
  | ldyZpx (zp8 : Byte)
  | ldaZpx (zp8 : Byte)
  | ldxZpy (zp8 : Byte)
  | smb3 (zp8 : Byte)
  | ldaAbsy (lo : Byte) (hi : Byte)
  | ldyAbsx (lo : Byte) (hi : Byte)
  | ldaAbsx (lo : Byte) (hi : Byte)
  | ldxAbsy (lo : Byte) (hi : Byte)
  | bbs3 (zp8 : Byte) (rel8 : Byte)
  | cpyImm (imm8 : Byte)
  | cmpIzx (zp8 : Byte)
  | cpyZp (zp8 : Byte)
  | cmpZp (zp8 : Byte)
  | decZp (zp8 : Byte)
  | smb4 (zp8 : Byte)
  | cmpImm (imm8 : Byte)
  | cpyAbs (lo : Byte) (hi : Byte)
  | cmpAbs (lo : Byte) (hi : Byte)
  | decAbs (lo : Byte) (hi : Byte)
  | bbs4 (zp8 : Byte) (rel8 : Byte)
  | bne (rel8 : Byte)
  | cmpIzy (zp8 : Byte)
  | cmpIzp (zp8 : Byte)
  | cmpZpx (zp8 : Byte)
  | decZpx (zp8 : Byte)
  | smb5 (zp8 : Byte)
  | cmpAbsy (lo : Byte) (hi : Byte)
  | cmpAbsx (lo : Byte) (hi : Byte)
  | decAbsx (lo : Byte) (hi : Byte)
  | bbs5 (zp8 : Byte) (rel8 : Byte)
  | cpxImm (imm8 : Byte)
  | sbcIzx (zp8 : Byte)
  | cpxZp (zp8 : Byte)
  | sbcZp (zp8 : Byte)
  | incZp (zp8 : Byte)
  | smb6 (zp8 : Byte)
  | sbcImm (imm8 : Byte)
  | cpxAbs (lo : Byte) (hi : Byte)
  | sbcAbs (lo : Byte) (hi : Byte)
  | incAbs (lo : Byte) (hi : Byte)
  | bbs6 (zp8 : Byte) (rel8 : Byte)
  | beq (rel8 : Byte)
  | sbcIzy (zp8 : Byte)
  | sbcIzp (zp8 : Byte)
  | sbcZpx (zp8 : Byte)
  | incZpx (zp8 : Byte)
  | smb7 (zp8 : Byte)
  | sbcAbsy (lo : Byte) (hi : Byte)
  | sbcAbsx (lo : Byte) (hi : Byte)
  | incAbsx (lo : Byte) (hi : Byte)
  | bbs7 (zp8 : Byte) (rel8 : Byte)
  -- rows of one byte, in table order
  | brk
  | undefined02
  | undefined03
  | php
  | aslAcc
  | undefined0B
  | undefined13
  | clc
  | incAcc
  | undefined1B
  | undefined22
  | undefined23
  | plp
  | rolAcc
  | undefined2B
  | undefined33
  | sec
  | decAcc
  | undefined3B
  | rti
  | undefined42
  | undefined43
  | undefined44
  | pha
  | lsrAcc
  | undefined4B
  | undefined53
  | undefined54
  | cli
  | phy
  | undefined5B
  | undefined5C
  | rts
  | undefined62
  | undefined63
  | pla
  | rorAcc
  | undefined6B
  | undefined73
  | sei
  | ply
  | undefined7B
  | undefined82
  | undefined83
  | dey
  | txa
  | undefined8B
  | undefined93
  | tya
  | txs
  | undefined9B
  | undefinedA3
  | tay
  | tax
  | undefinedAB
  | undefinedB3
  | clv
  | tsx
  | undefinedBB
  | undefinedC2
  | undefinedC3
  | iny
  | dex
  | waiRefused
  | undefinedD3
  | undefinedD4
  | cld
  | phx
  | stp
  | undefinedDC
  | undefinedE2
  | undefinedE3
  | inx
  | nop
  | undefinedEB
  | undefinedF3
  | undefinedF4
  | sed
  | plx
  | undefinedFB
  | undefinedFC
  deriving DecidableEq, Repr

end Sys2Proof
end

