-- ==== Sys2Proof/WellFormed.lean ====
section
/-! DEFINITION. What makes a term of Instr an instruction of this machine: its opcode is one of the 211 assigned ones
(30_encoding.md R66, R72). The 44 unassigned rows (R70) and the refused row (R71) are not well-formed.
Operand bytes have no reserved values: every byte is legal for every mode (R72), so nothing else is checked. -/

namespace Sys2Proof

/-- The row is one of the 211 assigned rows of R66. -/
def Instr.assigned : Instr → Bool
  | .brk => true
  | .oraIzx _ => true
  | .undefined02 => false
  | .undefined03 => false
  | .tsbZp _ => true
  | .oraZp _ => true
  | .aslZp _ => true
  | .rmb0 _ => true
  | .php => true
  | .oraImm _ => true
  | .aslAcc => true
  | .undefined0B => false
  | .tsbAbs _ _ => true
  | .oraAbs _ _ => true
  | .aslAbs _ _ => true
  | .bbr0 _ _ => true
  | .bpl _ => true
  | .oraIzy _ => true
  | .oraIzp _ => true
  | .undefined13 => false
  | .trbZp _ => true
  | .oraZpx _ => true
  | .aslZpx _ => true
  | .rmb1 _ => true
  | .clc => true
  | .oraAbsy _ _ => true
  | .incAcc => true
  | .undefined1B => false
  | .trbAbs _ _ => true
  | .oraAbsx _ _ => true
  | .aslAbsx _ _ => true
  | .bbr1 _ _ => true
  | .jsr _ _ => true
  | .andIzx _ => true
  | .undefined22 => false
  | .undefined23 => false
  | .bitZp _ => true
  | .andZp _ => true
  | .rolZp _ => true
  | .rmb2 _ => true
  | .plp => true
  | .andImm _ => true
  | .rolAcc => true
  | .undefined2B => false
  | .bitAbs _ _ => true
  | .andAbs _ _ => true
  | .rolAbs _ _ => true
  | .bbr2 _ _ => true
  | .bmi _ => true
  | .andIzy _ => true
  | .andIzp _ => true
  | .undefined33 => false
  | .bitZpx _ => true
  | .andZpx _ => true
  | .rolZpx _ => true
  | .rmb3 _ => true
  | .sec => true
  | .andAbsy _ _ => true
  | .decAcc => true
  | .undefined3B => false
  | .bitAbsx _ _ => true
  | .andAbsx _ _ => true
  | .rolAbsx _ _ => true
  | .bbr3 _ _ => true
  | .rti => true
  | .eorIzx _ => true
  | .undefined42 => false
  | .undefined43 => false
  | .undefined44 => false
  | .eorZp _ => true
  | .lsrZp _ => true
  | .rmb4 _ => true
  | .pha => true
  | .eorImm _ => true
  | .lsrAcc => true
  | .undefined4B => false
  | .jmpAbs _ _ => true
  | .eorAbs _ _ => true
  | .lsrAbs _ _ => true
  | .bbr4 _ _ => true
  | .bvc _ => true
  | .eorIzy _ => true
  | .eorIzp _ => true
  | .undefined53 => false
  | .undefined54 => false
  | .eorZpx _ => true
  | .lsrZpx _ => true
  | .rmb5 _ => true
  | .cli => true
  | .eorAbsy _ _ => true
  | .phy => true
  | .undefined5B => false
  | .undefined5C => false
  | .eorAbsx _ _ => true
  | .lsrAbsx _ _ => true
  | .bbr5 _ _ => true
  | .rts => true
  | .adcIzx _ => true
  | .undefined62 => false
  | .undefined63 => false
  | .stzZp _ => true
  | .adcZp _ => true
  | .rorZp _ => true
  | .rmb6 _ => true
  | .pla => true
  | .adcImm _ => true
  | .rorAcc => true
  | .undefined6B => false
  | .jmpInd _ _ => true
  | .adcAbs _ _ => true
  | .rorAbs _ _ => true
  | .bbr6 _ _ => true
  | .bvs _ => true
  | .adcIzy _ => true
  | .adcIzp _ => true
  | .undefined73 => false
  | .stzZpx _ => true
  | .adcZpx _ => true
  | .rorZpx _ => true
  | .rmb7 _ => true
  | .sei => true
  | .adcAbsy _ _ => true
  | .ply => true
  | .undefined7B => false
  | .jmpIax _ _ => true
  | .adcAbsx _ _ => true
  | .rorAbsx _ _ => true
  | .bbr7 _ _ => true
  | .bra _ => true
  | .staIzx _ => true
  | .undefined82 => false
  | .undefined83 => false
  | .styZp _ => true
  | .staZp _ => true
  | .stxZp _ => true
  | .smb0 _ => true
  | .dey => true
  | .bitImm _ => true
  | .txa => true
  | .undefined8B => false
  | .styAbs _ _ => true
  | .staAbs _ _ => true
  | .stxAbs _ _ => true
  | .bbs0 _ _ => true
  | .bcc _ => true
  | .staIzy _ => true
  | .staIzp _ => true
  | .undefined93 => false
  | .styZpx _ => true
  | .staZpx _ => true
  | .stxZpy _ => true
  | .smb1 _ => true
  | .tya => true
  | .staAbsy _ _ => true
  | .txs => true
  | .undefined9B => false
  | .stzAbs _ _ => true
  | .staAbsx _ _ => true
  | .stzAbsx _ _ => true
  | .bbs1 _ _ => true
  | .ldyImm _ => true
  | .ldaIzx _ => true
  | .ldxImm _ => true
  | .undefinedA3 => false
  | .ldyZp _ => true
  | .ldaZp _ => true
  | .ldxZp _ => true
  | .smb2 _ => true
  | .tay => true
  | .ldaImm _ => true
  | .tax => true
  | .undefinedAB => false
  | .ldyAbs _ _ => true
  | .ldaAbs _ _ => true
  | .ldxAbs _ _ => true
  | .bbs2 _ _ => true
  | .bcs _ => true
  | .ldaIzy _ => true
  | .ldaIzp _ => true
  | .undefinedB3 => false
  | .ldyZpx _ => true
  | .ldaZpx _ => true
  | .ldxZpy _ => true
  | .smb3 _ => true
  | .clv => true
  | .ldaAbsy _ _ => true
  | .tsx => true
  | .undefinedBB => false
  | .ldyAbsx _ _ => true
  | .ldaAbsx _ _ => true
  | .ldxAbsy _ _ => true
  | .bbs3 _ _ => true
  | .cpyImm _ => true
  | .cmpIzx _ => true
  | .undefinedC2 => false
  | .undefinedC3 => false
  | .cpyZp _ => true
  | .cmpZp _ => true
  | .decZp _ => true
  | .smb4 _ => true
  | .iny => true
  | .cmpImm _ => true
  | .dex => true
  | .waiRefused => false
  | .cpyAbs _ _ => true
  | .cmpAbs _ _ => true
  | .decAbs _ _ => true
  | .bbs4 _ _ => true
  | .bne _ => true
  | .cmpIzy _ => true
  | .cmpIzp _ => true
  | .undefinedD3 => false
  | .undefinedD4 => false
  | .cmpZpx _ => true
  | .decZpx _ => true
  | .smb5 _ => true
  | .cld => true
  | .cmpAbsy _ _ => true
  | .phx => true
  | .stp => true
  | .undefinedDC => false
  | .cmpAbsx _ _ => true
  | .decAbsx _ _ => true
  | .bbs5 _ _ => true
  | .cpxImm _ => true
  | .sbcIzx _ => true
  | .undefinedE2 => false
  | .undefinedE3 => false
  | .cpxZp _ => true
  | .sbcZp _ => true
  | .incZp _ => true
  | .smb6 _ => true
  | .inx => true
  | .sbcImm _ => true
  | .nop => true
  | .undefinedEB => false
  | .cpxAbs _ _ => true
  | .sbcAbs _ _ => true
  | .incAbs _ _ => true
  | .bbs6 _ _ => true
  | .beq _ => true
  | .sbcIzy _ => true
  | .sbcIzp _ => true
  | .undefinedF3 => false
  | .undefinedF4 => false
  | .sbcZpx _ => true
  | .incZpx _ => true
  | .smb7 _ => true
  | .sed => true
  | .sbcAbsy _ _ => true
  | .plx => true
  | .undefinedFB => false
  | .undefinedFC => false
  | .sbcAbsx _ _ => true
  | .incAbsx _ _ => true
  | .bbs7 _ _ => true

/-- A well-formed instruction: an assigned row, with any operand bytes. -/
abbrev WellFormed (i : Instr) : Prop := i.assigned = true

end Sys2Proof
end

