-- ==== Sys2Proof/Decode.lean ====
section
/-! DEFINITION. The opcode map (30_encoding.md R66), the decoder (R60 to R64) and the encoder (R68).
`Instr.row` is R66 read by instruction: opcode, mnemonic, mode with its operand bytes, base cycles.
`opcodeMap` is R66 read by opcode byte; the opcode byte alone decides (R60). The values are the spec's, which marks
them as general knowledge (decisions D1, D5): assumption log 8 and 9. -/

namespace Sys2Proof

/-- The addressing modes that compute an address (40_addressing_modes.md R94 to R105), with their operand bytes. -/
inductive AddrMode where
  | zp (zp8 : Byte)
  | zpx (zp8 : Byte)
  | zpy (zp8 : Byte)
  | abs (lo hi : Byte)
  | absx (lo hi : Byte)
  | absy (lo hi : Byte)
  | ind (lo hi : Byte)
  | izx (zp8 : Byte)
  | izy (zp8 : Byte)
  | izp (zp8 : Byte)
  | iax (lo hi : Byte)
  deriving DecidableEq, Repr

/-- All the mode tags of 30_encoding.md R63, with their operand bytes; `illegal` is the table's tag of a row that is no
instruction. -/
inductive Mode where
  | imp
  | acc
  | imm (imm8 : Byte)
  | mem (m : AddrMode)
  | rel (rel8 : Byte)
  | zprel (zp8 rel8 : Byte)
  | illegal
  deriving DecidableEq, Repr

/-- The mode tags alone (R75: the fifteen of the source and `zprel`). -/
inductive ModeTag where
  | imp | acc | imm | zp | zpx | zpy | abs | absx | absy | ind | izx | izy | izp | iax | rel | zprel
  | illegal
  deriving DecidableEq, Repr

/-- The mnemonics (R73); of the bit families the digit is part of the mnemonic (R68). -/
inductive Mnemonic where
  | brk | ora | tsb | asl | php | bpl | trb | clc | inc | jsr | and | bit
  | rol | plp | bmi | sec | dec | rti | eor | lsr | pha | jmp | bvc | cli
  | phy | rts | adc | stz | ror | pla | bvs | sei | ply | bra | sta | sty
  | stx | dey | txa | bcc | tya | txs | ldy | lda | ldx | tay | tax | bcs
  | clv | tsx | cpy | cmp | iny | dex | bne | cld | phx | stp | cpx | sbc
  | inx | nop | beq | sed | plx
  | rmb (n : Fin 8) | smb (n : Fin 8) | bbr (n : Fin 8) | bbs (n : Fin 8)
  | undefined (opcode : Byte) | wai
  deriving DecidableEq, Repr

/-- One row of R66. `cycles` is the base cycle count; an illegal row has none and holds 0, which nothing reads. -/
structure Row where
  opcode : Byte
  mnemonic : Mnemonic
  mode : Mode
  cycles : Nat
  deriving DecidableEq, Repr

/-- The tag of an address mode. -/
def AddrMode.tag : AddrMode → ModeTag
  | .zp _ => .zp
  | .zpx _ => .zpx
  | .zpy _ => .zpy
  | .abs _ _ => .abs
  | .absx _ _ => .absx
  | .absy _ _ => .absy
  | .ind _ _ => .ind
  | .izx _ => .izx
  | .izy _ => .izy
  | .izp _ => .izp
  | .iax _ _ => .iax

/-- The tag of a mode (R63). -/
def Mode.tag : Mode → ModeTag
  | .imp => .imp
  | .acc => .acc
  | .imm _ => .imm
  | .mem m => m.tag
  | .rel _ => .rel
  | .zprel _ _ => .zprel
  | .illegal => .illegal

/-- The instruction length of a mode tag (R61). An illegal row has none: its opcode byte alone is fetched before the
step fails (60_exceptions.md R352). -/
def ModeTag.length : ModeTag → Nat
  | .imp | .acc | .illegal => 1
  | .imm | .zp | .zpx | .zpy | .izx | .izy | .izp | .rel => 2
  | .abs | .absx | .absy | .ind | .iax | .zprel => 3

/-- The operand bytes of an address mode, first byte first (R63). -/
def AddrMode.bytes : AddrMode → List Byte
  | .zp z | .zpx z | .zpy z | .izx z | .izy z | .izp z => [z]
  | .abs lo hi | .absx lo hi | .absy lo hi | .ind lo hi | .iax lo hi => [lo, hi]

/-- The operand bytes of a mode, first byte first (R63). -/
def Mode.bytes : Mode → List Byte
  | .imp | .acc | .illegal => []
  | .imm v => [v]
  | .mem m => m.bytes
  | .rel off => [off]
  | .zprel z off => [z, off]

/-- The opcode map read by instruction (R66). -/
def Instr.row : Instr → Row
  | .brk => ⟨0x00, .brk, .imp, 7⟩
  | .oraIzx zp8 => ⟨0x01, .ora, .mem (.izx zp8), 6⟩
  | .undefined02 => ⟨0x02, (.undefined 0x02), .illegal, 0⟩
  | .undefined03 => ⟨0x03, (.undefined 0x03), .illegal, 0⟩
  | .tsbZp zp8 => ⟨0x04, .tsb, .mem (.zp zp8), 5⟩
  | .oraZp zp8 => ⟨0x05, .ora, .mem (.zp zp8), 3⟩
  | .aslZp zp8 => ⟨0x06, .asl, .mem (.zp zp8), 5⟩
  | .rmb0 zp8 => ⟨0x07, (.rmb 0), .mem (.zp zp8), 5⟩
  | .php => ⟨0x08, .php, .imp, 3⟩
  | .oraImm imm8 => ⟨0x09, .ora, .imm imm8, 2⟩
  | .aslAcc => ⟨0x0A, .asl, .acc, 2⟩
  | .undefined0B => ⟨0x0B, (.undefined 0x0B), .illegal, 0⟩
  | .tsbAbs lo hi => ⟨0x0C, .tsb, .mem (.abs lo hi), 6⟩
  | .oraAbs lo hi => ⟨0x0D, .ora, .mem (.abs lo hi), 4⟩
  | .aslAbs lo hi => ⟨0x0E, .asl, .mem (.abs lo hi), 6⟩
  | .bbr0 zp8 rel8 => ⟨0x0F, (.bbr 0), .zprel zp8 rel8, 5⟩
  | .bpl rel8 => ⟨0x10, .bpl, .rel rel8, 2⟩
  | .oraIzy zp8 => ⟨0x11, .ora, .mem (.izy zp8), 5⟩
  | .oraIzp zp8 => ⟨0x12, .ora, .mem (.izp zp8), 5⟩
  | .undefined13 => ⟨0x13, (.undefined 0x13), .illegal, 0⟩
  | .trbZp zp8 => ⟨0x14, .trb, .mem (.zp zp8), 5⟩
  | .oraZpx zp8 => ⟨0x15, .ora, .mem (.zpx zp8), 4⟩
  | .aslZpx zp8 => ⟨0x16, .asl, .mem (.zpx zp8), 6⟩
  | .rmb1 zp8 => ⟨0x17, (.rmb 1), .mem (.zp zp8), 5⟩
  | .clc => ⟨0x18, .clc, .imp, 2⟩
  | .oraAbsy lo hi => ⟨0x19, .ora, .mem (.absy lo hi), 4⟩
  | .incAcc => ⟨0x1A, .inc, .acc, 2⟩
  | .undefined1B => ⟨0x1B, (.undefined 0x1B), .illegal, 0⟩
  | .trbAbs lo hi => ⟨0x1C, .trb, .mem (.abs lo hi), 6⟩
  | .oraAbsx lo hi => ⟨0x1D, .ora, .mem (.absx lo hi), 4⟩
  | .aslAbsx lo hi => ⟨0x1E, .asl, .mem (.absx lo hi), 6⟩
  | .bbr1 zp8 rel8 => ⟨0x1F, (.bbr 1), .zprel zp8 rel8, 5⟩
  | .jsr lo hi => ⟨0x20, .jsr, .mem (.abs lo hi), 6⟩
  | .andIzx zp8 => ⟨0x21, .and, .mem (.izx zp8), 6⟩
  | .undefined22 => ⟨0x22, (.undefined 0x22), .illegal, 0⟩
  | .undefined23 => ⟨0x23, (.undefined 0x23), .illegal, 0⟩
  | .bitZp zp8 => ⟨0x24, .bit, .mem (.zp zp8), 3⟩
  | .andZp zp8 => ⟨0x25, .and, .mem (.zp zp8), 3⟩
  | .rolZp zp8 => ⟨0x26, .rol, .mem (.zp zp8), 5⟩
  | .rmb2 zp8 => ⟨0x27, (.rmb 2), .mem (.zp zp8), 5⟩
  | .plp => ⟨0x28, .plp, .imp, 4⟩
  | .andImm imm8 => ⟨0x29, .and, .imm imm8, 2⟩
  | .rolAcc => ⟨0x2A, .rol, .acc, 2⟩
  | .undefined2B => ⟨0x2B, (.undefined 0x2B), .illegal, 0⟩
  | .bitAbs lo hi => ⟨0x2C, .bit, .mem (.abs lo hi), 4⟩
  | .andAbs lo hi => ⟨0x2D, .and, .mem (.abs lo hi), 4⟩
  | .rolAbs lo hi => ⟨0x2E, .rol, .mem (.abs lo hi), 6⟩
  | .bbr2 zp8 rel8 => ⟨0x2F, (.bbr 2), .zprel zp8 rel8, 5⟩
  | .bmi rel8 => ⟨0x30, .bmi, .rel rel8, 2⟩
  | .andIzy zp8 => ⟨0x31, .and, .mem (.izy zp8), 5⟩
  | .andIzp zp8 => ⟨0x32, .and, .mem (.izp zp8), 5⟩
  | .undefined33 => ⟨0x33, (.undefined 0x33), .illegal, 0⟩
  | .bitZpx zp8 => ⟨0x34, .bit, .mem (.zpx zp8), 4⟩
  | .andZpx zp8 => ⟨0x35, .and, .mem (.zpx zp8), 4⟩
  | .rolZpx zp8 => ⟨0x36, .rol, .mem (.zpx zp8), 6⟩
  | .rmb3 zp8 => ⟨0x37, (.rmb 3), .mem (.zp zp8), 5⟩
  | .sec => ⟨0x38, .sec, .imp, 2⟩
  | .andAbsy lo hi => ⟨0x39, .and, .mem (.absy lo hi), 4⟩
  | .decAcc => ⟨0x3A, .dec, .acc, 2⟩
  | .undefined3B => ⟨0x3B, (.undefined 0x3B), .illegal, 0⟩
  | .bitAbsx lo hi => ⟨0x3C, .bit, .mem (.absx lo hi), 4⟩
  | .andAbsx lo hi => ⟨0x3D, .and, .mem (.absx lo hi), 4⟩
  | .rolAbsx lo hi => ⟨0x3E, .rol, .mem (.absx lo hi), 6⟩
  | .bbr3 zp8 rel8 => ⟨0x3F, (.bbr 3), .zprel zp8 rel8, 5⟩
  | .rti => ⟨0x40, .rti, .imp, 6⟩
  | .eorIzx zp8 => ⟨0x41, .eor, .mem (.izx zp8), 6⟩
  | .undefined42 => ⟨0x42, (.undefined 0x42), .illegal, 0⟩
  | .undefined43 => ⟨0x43, (.undefined 0x43), .illegal, 0⟩
  | .undefined44 => ⟨0x44, (.undefined 0x44), .illegal, 0⟩
  | .eorZp zp8 => ⟨0x45, .eor, .mem (.zp zp8), 3⟩
  | .lsrZp zp8 => ⟨0x46, .lsr, .mem (.zp zp8), 5⟩
  | .rmb4 zp8 => ⟨0x47, (.rmb 4), .mem (.zp zp8), 5⟩
  | .pha => ⟨0x48, .pha, .imp, 3⟩
  | .eorImm imm8 => ⟨0x49, .eor, .imm imm8, 2⟩
  | .lsrAcc => ⟨0x4A, .lsr, .acc, 2⟩
  | .undefined4B => ⟨0x4B, (.undefined 0x4B), .illegal, 0⟩
  | .jmpAbs lo hi => ⟨0x4C, .jmp, .mem (.abs lo hi), 3⟩
  | .eorAbs lo hi => ⟨0x4D, .eor, .mem (.abs lo hi), 4⟩
  | .lsrAbs lo hi => ⟨0x4E, .lsr, .mem (.abs lo hi), 6⟩
  | .bbr4 zp8 rel8 => ⟨0x4F, (.bbr 4), .zprel zp8 rel8, 5⟩
  | .bvc rel8 => ⟨0x50, .bvc, .rel rel8, 2⟩
  | .eorIzy zp8 => ⟨0x51, .eor, .mem (.izy zp8), 5⟩
  | .eorIzp zp8 => ⟨0x52, .eor, .mem (.izp zp8), 5⟩
  | .undefined53 => ⟨0x53, (.undefined 0x53), .illegal, 0⟩
  | .undefined54 => ⟨0x54, (.undefined 0x54), .illegal, 0⟩
  | .eorZpx zp8 => ⟨0x55, .eor, .mem (.zpx zp8), 4⟩
  | .lsrZpx zp8 => ⟨0x56, .lsr, .mem (.zpx zp8), 6⟩
  | .rmb5 zp8 => ⟨0x57, (.rmb 5), .mem (.zp zp8), 5⟩
  | .cli => ⟨0x58, .cli, .imp, 2⟩
  | .eorAbsy lo hi => ⟨0x59, .eor, .mem (.absy lo hi), 4⟩
  | .phy => ⟨0x5A, .phy, .imp, 3⟩
  | .undefined5B => ⟨0x5B, (.undefined 0x5B), .illegal, 0⟩
  | .undefined5C => ⟨0x5C, (.undefined 0x5C), .illegal, 0⟩
  | .eorAbsx lo hi => ⟨0x5D, .eor, .mem (.absx lo hi), 4⟩
  | .lsrAbsx lo hi => ⟨0x5E, .lsr, .mem (.absx lo hi), 6⟩
  | .bbr5 zp8 rel8 => ⟨0x5F, (.bbr 5), .zprel zp8 rel8, 5⟩
  | .rts => ⟨0x60, .rts, .imp, 6⟩
  | .adcIzx zp8 => ⟨0x61, .adc, .mem (.izx zp8), 6⟩
  | .undefined62 => ⟨0x62, (.undefined 0x62), .illegal, 0⟩
  | .undefined63 => ⟨0x63, (.undefined 0x63), .illegal, 0⟩
  | .stzZp zp8 => ⟨0x64, .stz, .mem (.zp zp8), 3⟩
  | .adcZp zp8 => ⟨0x65, .adc, .mem (.zp zp8), 3⟩
  | .rorZp zp8 => ⟨0x66, .ror, .mem (.zp zp8), 5⟩
  | .rmb6 zp8 => ⟨0x67, (.rmb 6), .mem (.zp zp8), 5⟩
  | .pla => ⟨0x68, .pla, .imp, 4⟩
  | .adcImm imm8 => ⟨0x69, .adc, .imm imm8, 2⟩
  | .rorAcc => ⟨0x6A, .ror, .acc, 2⟩
  | .undefined6B => ⟨0x6B, (.undefined 0x6B), .illegal, 0⟩
  | .jmpInd lo hi => ⟨0x6C, .jmp, .mem (.ind lo hi), 6⟩
  | .adcAbs lo hi => ⟨0x6D, .adc, .mem (.abs lo hi), 4⟩
  | .rorAbs lo hi => ⟨0x6E, .ror, .mem (.abs lo hi), 6⟩
  | .bbr6 zp8 rel8 => ⟨0x6F, (.bbr 6), .zprel zp8 rel8, 5⟩
  | .bvs rel8 => ⟨0x70, .bvs, .rel rel8, 2⟩
  | .adcIzy zp8 => ⟨0x71, .adc, .mem (.izy zp8), 5⟩
  | .adcIzp zp8 => ⟨0x72, .adc, .mem (.izp zp8), 5⟩
  | .undefined73 => ⟨0x73, (.undefined 0x73), .illegal, 0⟩
  | .stzZpx zp8 => ⟨0x74, .stz, .mem (.zpx zp8), 4⟩
  | .adcZpx zp8 => ⟨0x75, .adc, .mem (.zpx zp8), 4⟩
  | .rorZpx zp8 => ⟨0x76, .ror, .mem (.zpx zp8), 6⟩
  | .rmb7 zp8 => ⟨0x77, (.rmb 7), .mem (.zp zp8), 5⟩
  | .sei => ⟨0x78, .sei, .imp, 2⟩
  | .adcAbsy lo hi => ⟨0x79, .adc, .mem (.absy lo hi), 4⟩
  | .ply => ⟨0x7A, .ply, .imp, 4⟩
  | .undefined7B => ⟨0x7B, (.undefined 0x7B), .illegal, 0⟩
  | .jmpIax lo hi => ⟨0x7C, .jmp, .mem (.iax lo hi), 6⟩
  | .adcAbsx lo hi => ⟨0x7D, .adc, .mem (.absx lo hi), 4⟩
  | .rorAbsx lo hi => ⟨0x7E, .ror, .mem (.absx lo hi), 6⟩
  | .bbr7 zp8 rel8 => ⟨0x7F, (.bbr 7), .zprel zp8 rel8, 5⟩
  | .bra rel8 => ⟨0x80, .bra, .rel rel8, 2⟩
  | .staIzx zp8 => ⟨0x81, .sta, .mem (.izx zp8), 6⟩
  | .undefined82 => ⟨0x82, (.undefined 0x82), .illegal, 0⟩
  | .undefined83 => ⟨0x83, (.undefined 0x83), .illegal, 0⟩
  | .styZp zp8 => ⟨0x84, .sty, .mem (.zp zp8), 3⟩
  | .staZp zp8 => ⟨0x85, .sta, .mem (.zp zp8), 3⟩
  | .stxZp zp8 => ⟨0x86, .stx, .mem (.zp zp8), 3⟩
  | .smb0 zp8 => ⟨0x87, (.smb 0), .mem (.zp zp8), 5⟩
  | .dey => ⟨0x88, .dey, .imp, 2⟩
  | .bitImm imm8 => ⟨0x89, .bit, .imm imm8, 2⟩
  | .txa => ⟨0x8A, .txa, .imp, 2⟩
  | .undefined8B => ⟨0x8B, (.undefined 0x8B), .illegal, 0⟩
  | .styAbs lo hi => ⟨0x8C, .sty, .mem (.abs lo hi), 4⟩
  | .staAbs lo hi => ⟨0x8D, .sta, .mem (.abs lo hi), 4⟩
  | .stxAbs lo hi => ⟨0x8E, .stx, .mem (.abs lo hi), 4⟩
  | .bbs0 zp8 rel8 => ⟨0x8F, (.bbs 0), .zprel zp8 rel8, 5⟩
  | .bcc rel8 => ⟨0x90, .bcc, .rel rel8, 2⟩
  | .staIzy zp8 => ⟨0x91, .sta, .mem (.izy zp8), 6⟩
  | .staIzp zp8 => ⟨0x92, .sta, .mem (.izp zp8), 5⟩
  | .undefined93 => ⟨0x93, (.undefined 0x93), .illegal, 0⟩
  | .styZpx zp8 => ⟨0x94, .sty, .mem (.zpx zp8), 4⟩
  | .staZpx zp8 => ⟨0x95, .sta, .mem (.zpx zp8), 4⟩
  | .stxZpy zp8 => ⟨0x96, .stx, .mem (.zpy zp8), 4⟩
  | .smb1 zp8 => ⟨0x97, (.smb 1), .mem (.zp zp8), 5⟩
  | .tya => ⟨0x98, .tya, .imp, 2⟩
  | .staAbsy lo hi => ⟨0x99, .sta, .mem (.absy lo hi), 5⟩
  | .txs => ⟨0x9A, .txs, .imp, 2⟩
  | .undefined9B => ⟨0x9B, (.undefined 0x9B), .illegal, 0⟩
  | .stzAbs lo hi => ⟨0x9C, .stz, .mem (.abs lo hi), 4⟩
  | .staAbsx lo hi => ⟨0x9D, .sta, .mem (.absx lo hi), 5⟩
  | .stzAbsx lo hi => ⟨0x9E, .stz, .mem (.absx lo hi), 5⟩
  | .bbs1 zp8 rel8 => ⟨0x9F, (.bbs 1), .zprel zp8 rel8, 5⟩
  | .ldyImm imm8 => ⟨0xA0, .ldy, .imm imm8, 2⟩
  | .ldaIzx zp8 => ⟨0xA1, .lda, .mem (.izx zp8), 6⟩
  | .ldxImm imm8 => ⟨0xA2, .ldx, .imm imm8, 2⟩
  | .undefinedA3 => ⟨0xA3, (.undefined 0xA3), .illegal, 0⟩
  | .ldyZp zp8 => ⟨0xA4, .ldy, .mem (.zp zp8), 3⟩
  | .ldaZp zp8 => ⟨0xA5, .lda, .mem (.zp zp8), 3⟩
  | .ldxZp zp8 => ⟨0xA6, .ldx, .mem (.zp zp8), 3⟩
  | .smb2 zp8 => ⟨0xA7, (.smb 2), .mem (.zp zp8), 5⟩
  | .tay => ⟨0xA8, .tay, .imp, 2⟩
  | .ldaImm imm8 => ⟨0xA9, .lda, .imm imm8, 2⟩
  | .tax => ⟨0xAA, .tax, .imp, 2⟩
  | .undefinedAB => ⟨0xAB, (.undefined 0xAB), .illegal, 0⟩
  | .ldyAbs lo hi => ⟨0xAC, .ldy, .mem (.abs lo hi), 4⟩
  | .ldaAbs lo hi => ⟨0xAD, .lda, .mem (.abs lo hi), 4⟩
  | .ldxAbs lo hi => ⟨0xAE, .ldx, .mem (.abs lo hi), 4⟩
  | .bbs2 zp8 rel8 => ⟨0xAF, (.bbs 2), .zprel zp8 rel8, 5⟩
  | .bcs rel8 => ⟨0xB0, .bcs, .rel rel8, 2⟩
  | .ldaIzy zp8 => ⟨0xB1, .lda, .mem (.izy zp8), 5⟩
  | .ldaIzp zp8 => ⟨0xB2, .lda, .mem (.izp zp8), 5⟩
  | .undefinedB3 => ⟨0xB3, (.undefined 0xB3), .illegal, 0⟩
  | .ldyZpx zp8 => ⟨0xB4, .ldy, .mem (.zpx zp8), 4⟩
  | .ldaZpx zp8 => ⟨0xB5, .lda, .mem (.zpx zp8), 4⟩
  | .ldxZpy zp8 => ⟨0xB6, .ldx, .mem (.zpy zp8), 4⟩
  | .smb3 zp8 => ⟨0xB7, (.smb 3), .mem (.zp zp8), 5⟩
  | .clv => ⟨0xB8, .clv, .imp, 2⟩
  | .ldaAbsy lo hi => ⟨0xB9, .lda, .mem (.absy lo hi), 4⟩
  | .tsx => ⟨0xBA, .tsx, .imp, 2⟩
  | .undefinedBB => ⟨0xBB, (.undefined 0xBB), .illegal, 0⟩
  | .ldyAbsx lo hi => ⟨0xBC, .ldy, .mem (.absx lo hi), 4⟩
  | .ldaAbsx lo hi => ⟨0xBD, .lda, .mem (.absx lo hi), 4⟩
  | .ldxAbsy lo hi => ⟨0xBE, .ldx, .mem (.absy lo hi), 4⟩
  | .bbs3 zp8 rel8 => ⟨0xBF, (.bbs 3), .zprel zp8 rel8, 5⟩
  | .cpyImm imm8 => ⟨0xC0, .cpy, .imm imm8, 2⟩
  | .cmpIzx zp8 => ⟨0xC1, .cmp, .mem (.izx zp8), 6⟩
  | .undefinedC2 => ⟨0xC2, (.undefined 0xC2), .illegal, 0⟩
  | .undefinedC3 => ⟨0xC3, (.undefined 0xC3), .illegal, 0⟩
  | .cpyZp zp8 => ⟨0xC4, .cpy, .mem (.zp zp8), 3⟩
  | .cmpZp zp8 => ⟨0xC5, .cmp, .mem (.zp zp8), 3⟩
  | .decZp zp8 => ⟨0xC6, .dec, .mem (.zp zp8), 5⟩
  | .smb4 zp8 => ⟨0xC7, (.smb 4), .mem (.zp zp8), 5⟩
  | .iny => ⟨0xC8, .iny, .imp, 2⟩
  | .cmpImm imm8 => ⟨0xC9, .cmp, .imm imm8, 2⟩
  | .dex => ⟨0xCA, .dex, .imp, 2⟩
  | .waiRefused => ⟨0xCB, .wai, .illegal, 0⟩
  | .cpyAbs lo hi => ⟨0xCC, .cpy, .mem (.abs lo hi), 4⟩
  | .cmpAbs lo hi => ⟨0xCD, .cmp, .mem (.abs lo hi), 4⟩
  | .decAbs lo hi => ⟨0xCE, .dec, .mem (.abs lo hi), 6⟩
  | .bbs4 zp8 rel8 => ⟨0xCF, (.bbs 4), .zprel zp8 rel8, 5⟩
  | .bne rel8 => ⟨0xD0, .bne, .rel rel8, 2⟩
  | .cmpIzy zp8 => ⟨0xD1, .cmp, .mem (.izy zp8), 5⟩
  | .cmpIzp zp8 => ⟨0xD2, .cmp, .mem (.izp zp8), 5⟩
  | .undefinedD3 => ⟨0xD3, (.undefined 0xD3), .illegal, 0⟩
  | .undefinedD4 => ⟨0xD4, (.undefined 0xD4), .illegal, 0⟩
  | .cmpZpx zp8 => ⟨0xD5, .cmp, .mem (.zpx zp8), 4⟩
  | .decZpx zp8 => ⟨0xD6, .dec, .mem (.zpx zp8), 6⟩
  | .smb5 zp8 => ⟨0xD7, (.smb 5), .mem (.zp zp8), 5⟩
  | .cld => ⟨0xD8, .cld, .imp, 2⟩
  | .cmpAbsy lo hi => ⟨0xD9, .cmp, .mem (.absy lo hi), 4⟩
  | .phx => ⟨0xDA, .phx, .imp, 3⟩
  | .stp => ⟨0xDB, .stp, .imp, 3⟩
  | .undefinedDC => ⟨0xDC, (.undefined 0xDC), .illegal, 0⟩
  | .cmpAbsx lo hi => ⟨0xDD, .cmp, .mem (.absx lo hi), 4⟩
  | .decAbsx lo hi => ⟨0xDE, .dec, .mem (.absx lo hi), 7⟩
  | .bbs5 zp8 rel8 => ⟨0xDF, (.bbs 5), .zprel zp8 rel8, 5⟩
  | .cpxImm imm8 => ⟨0xE0, .cpx, .imm imm8, 2⟩
  | .sbcIzx zp8 => ⟨0xE1, .sbc, .mem (.izx zp8), 6⟩
  | .undefinedE2 => ⟨0xE2, (.undefined 0xE2), .illegal, 0⟩
  | .undefinedE3 => ⟨0xE3, (.undefined 0xE3), .illegal, 0⟩
  | .cpxZp zp8 => ⟨0xE4, .cpx, .mem (.zp zp8), 3⟩
  | .sbcZp zp8 => ⟨0xE5, .sbc, .mem (.zp zp8), 3⟩
  | .incZp zp8 => ⟨0xE6, .inc, .mem (.zp zp8), 5⟩
  | .smb6 zp8 => ⟨0xE7, (.smb 6), .mem (.zp zp8), 5⟩
  | .inx => ⟨0xE8, .inx, .imp, 2⟩
  | .sbcImm imm8 => ⟨0xE9, .sbc, .imm imm8, 2⟩
  | .nop => ⟨0xEA, .nop, .imp, 2⟩
  | .undefinedEB => ⟨0xEB, (.undefined 0xEB), .illegal, 0⟩
  | .cpxAbs lo hi => ⟨0xEC, .cpx, .mem (.abs lo hi), 4⟩
  | .sbcAbs lo hi => ⟨0xED, .sbc, .mem (.abs lo hi), 4⟩
  | .incAbs lo hi => ⟨0xEE, .inc, .mem (.abs lo hi), 6⟩
  | .bbs6 zp8 rel8 => ⟨0xEF, (.bbs 6), .zprel zp8 rel8, 5⟩
  | .beq rel8 => ⟨0xF0, .beq, .rel rel8, 2⟩
  | .sbcIzy zp8 => ⟨0xF1, .sbc, .mem (.izy zp8), 5⟩
  | .sbcIzp zp8 => ⟨0xF2, .sbc, .mem (.izp zp8), 5⟩
  | .undefinedF3 => ⟨0xF3, (.undefined 0xF3), .illegal, 0⟩
  | .undefinedF4 => ⟨0xF4, (.undefined 0xF4), .illegal, 0⟩
  | .sbcZpx zp8 => ⟨0xF5, .sbc, .mem (.zpx zp8), 4⟩
  | .incZpx zp8 => ⟨0xF6, .inc, .mem (.zpx zp8), 6⟩
  | .smb7 zp8 => ⟨0xF7, (.smb 7), .mem (.zp zp8), 5⟩
  | .sed => ⟨0xF8, .sed, .imp, 2⟩
  | .sbcAbsy lo hi => ⟨0xF9, .sbc, .mem (.absy lo hi), 4⟩
  | .plx => ⟨0xFA, .plx, .imp, 4⟩
  | .undefinedFB => ⟨0xFB, (.undefined 0xFB), .illegal, 0⟩
  | .undefinedFC => ⟨0xFC, (.undefined 0xFC), .illegal, 0⟩
  | .sbcAbsx lo hi => ⟨0xFD, .sbc, .mem (.absx lo hi), 4⟩
  | .incAbsx lo hi => ⟨0xFE, .inc, .mem (.absx lo hi), 7⟩
  | .bbs7 zp8 rel8 => ⟨0xFF, (.bbs 7), .zprel zp8 rel8, 5⟩

def Instr.opcode (i : Instr) : Byte := i.row.opcode

def Instr.mnemonic (i : Instr) : Mnemonic := i.row.mnemonic

def Instr.mode (i : Instr) : Mode := i.row.mode

/-- `BASE_CYCLES` of the instruction (R66, decision D5; assumption log 9). -/
def Instr.baseCycles (i : Instr) : Nat := i.row.cycles

/-- The instruction's length in bytes, from its mode tag alone (R61). -/
def Instr.length (i : Instr) : Nat := i.mode.tag.length

/-- The rows 0x00 to 0x0F of R66, each as the instruction its opcode and operand bytes `b1`, `b2` make (R62, R63). -/
def opcodeMap0 : List (Byte → Byte → Instr) := [
  fun _ _ => .brk,
  fun b1 _ => .oraIzx b1,
  fun _ _ => .undefined02,
  fun _ _ => .undefined03,
  fun b1 _ => .tsbZp b1,
  fun b1 _ => .oraZp b1,
  fun b1 _ => .aslZp b1,
  fun b1 _ => .rmb0 b1,
  fun _ _ => .php,
  fun b1 _ => .oraImm b1,
  fun _ _ => .aslAcc,
  fun _ _ => .undefined0B,
  fun b1 b2 => .tsbAbs b1 b2,
  fun b1 b2 => .oraAbs b1 b2,
  fun b1 b2 => .aslAbs b1 b2,
  fun b1 b2 => .bbr0 b1 b2]

/-- The rows 0x10 to 0x1F of R66, each as the instruction its opcode and operand bytes `b1`, `b2` make (R62, R63). -/
def opcodeMap1 : List (Byte → Byte → Instr) := [
  fun b1 _ => .bpl b1,
  fun b1 _ => .oraIzy b1,
  fun b1 _ => .oraIzp b1,
  fun _ _ => .undefined13,
  fun b1 _ => .trbZp b1,
  fun b1 _ => .oraZpx b1,
  fun b1 _ => .aslZpx b1,
  fun b1 _ => .rmb1 b1,
  fun _ _ => .clc,
  fun b1 b2 => .oraAbsy b1 b2,
  fun _ _ => .incAcc,
  fun _ _ => .undefined1B,
  fun b1 b2 => .trbAbs b1 b2,
  fun b1 b2 => .oraAbsx b1 b2,
  fun b1 b2 => .aslAbsx b1 b2,
  fun b1 b2 => .bbr1 b1 b2]

/-- The rows 0x20 to 0x2F of R66, each as the instruction its opcode and operand bytes `b1`, `b2` make (R62, R63). -/
def opcodeMap2 : List (Byte → Byte → Instr) := [
  fun b1 b2 => .jsr b1 b2,
  fun b1 _ => .andIzx b1,
  fun _ _ => .undefined22,
  fun _ _ => .undefined23,
  fun b1 _ => .bitZp b1,
  fun b1 _ => .andZp b1,
  fun b1 _ => .rolZp b1,
  fun b1 _ => .rmb2 b1,
  fun _ _ => .plp,
  fun b1 _ => .andImm b1,
  fun _ _ => .rolAcc,
  fun _ _ => .undefined2B,
  fun b1 b2 => .bitAbs b1 b2,
  fun b1 b2 => .andAbs b1 b2,
  fun b1 b2 => .rolAbs b1 b2,
  fun b1 b2 => .bbr2 b1 b2]

/-- The rows 0x30 to 0x3F of R66, each as the instruction its opcode and operand bytes `b1`, `b2` make (R62, R63). -/
def opcodeMap3 : List (Byte → Byte → Instr) := [
  fun b1 _ => .bmi b1,
  fun b1 _ => .andIzy b1,
  fun b1 _ => .andIzp b1,
  fun _ _ => .undefined33,
  fun b1 _ => .bitZpx b1,
  fun b1 _ => .andZpx b1,
  fun b1 _ => .rolZpx b1,
  fun b1 _ => .rmb3 b1,
  fun _ _ => .sec,
  fun b1 b2 => .andAbsy b1 b2,
  fun _ _ => .decAcc,
  fun _ _ => .undefined3B,
  fun b1 b2 => .bitAbsx b1 b2,
  fun b1 b2 => .andAbsx b1 b2,
  fun b1 b2 => .rolAbsx b1 b2,
  fun b1 b2 => .bbr3 b1 b2]

/-- The rows 0x40 to 0x4F of R66, each as the instruction its opcode and operand bytes `b1`, `b2` make (R62, R63). -/
def opcodeMap4 : List (Byte → Byte → Instr) := [
  fun _ _ => .rti,
  fun b1 _ => .eorIzx b1,
  fun _ _ => .undefined42,
  fun _ _ => .undefined43,
  fun _ _ => .undefined44,
  fun b1 _ => .eorZp b1,
  fun b1 _ => .lsrZp b1,
  fun b1 _ => .rmb4 b1,
  fun _ _ => .pha,
  fun b1 _ => .eorImm b1,
  fun _ _ => .lsrAcc,
  fun _ _ => .undefined4B,
  fun b1 b2 => .jmpAbs b1 b2,
  fun b1 b2 => .eorAbs b1 b2,
  fun b1 b2 => .lsrAbs b1 b2,
  fun b1 b2 => .bbr4 b1 b2]

/-- The rows 0x50 to 0x5F of R66, each as the instruction its opcode and operand bytes `b1`, `b2` make (R62, R63). -/
def opcodeMap5 : List (Byte → Byte → Instr) := [
  fun b1 _ => .bvc b1,
  fun b1 _ => .eorIzy b1,
  fun b1 _ => .eorIzp b1,
  fun _ _ => .undefined53,
  fun _ _ => .undefined54,
  fun b1 _ => .eorZpx b1,
  fun b1 _ => .lsrZpx b1,
  fun b1 _ => .rmb5 b1,
  fun _ _ => .cli,
  fun b1 b2 => .eorAbsy b1 b2,
  fun _ _ => .phy,
  fun _ _ => .undefined5B,
  fun _ _ => .undefined5C,
  fun b1 b2 => .eorAbsx b1 b2,
  fun b1 b2 => .lsrAbsx b1 b2,
  fun b1 b2 => .bbr5 b1 b2]

/-- The rows 0x60 to 0x6F of R66, each as the instruction its opcode and operand bytes `b1`, `b2` make (R62, R63). -/
def opcodeMap6 : List (Byte → Byte → Instr) := [
  fun _ _ => .rts,
  fun b1 _ => .adcIzx b1,
  fun _ _ => .undefined62,
  fun _ _ => .undefined63,
  fun b1 _ => .stzZp b1,
  fun b1 _ => .adcZp b1,
  fun b1 _ => .rorZp b1,
  fun b1 _ => .rmb6 b1,
  fun _ _ => .pla,
  fun b1 _ => .adcImm b1,
  fun _ _ => .rorAcc,
  fun _ _ => .undefined6B,
  fun b1 b2 => .jmpInd b1 b2,
  fun b1 b2 => .adcAbs b1 b2,
  fun b1 b2 => .rorAbs b1 b2,
  fun b1 b2 => .bbr6 b1 b2]

/-- The rows 0x70 to 0x7F of R66, each as the instruction its opcode and operand bytes `b1`, `b2` make (R62, R63). -/
def opcodeMap7 : List (Byte → Byte → Instr) := [
  fun b1 _ => .bvs b1,
  fun b1 _ => .adcIzy b1,
  fun b1 _ => .adcIzp b1,
  fun _ _ => .undefined73,
  fun b1 _ => .stzZpx b1,
  fun b1 _ => .adcZpx b1,
  fun b1 _ => .rorZpx b1,
  fun b1 _ => .rmb7 b1,
  fun _ _ => .sei,
  fun b1 b2 => .adcAbsy b1 b2,
  fun _ _ => .ply,
  fun _ _ => .undefined7B,
  fun b1 b2 => .jmpIax b1 b2,
  fun b1 b2 => .adcAbsx b1 b2,
  fun b1 b2 => .rorAbsx b1 b2,
  fun b1 b2 => .bbr7 b1 b2]

/-- The rows 0x80 to 0x8F of R66, each as the instruction its opcode and operand bytes `b1`, `b2` make (R62, R63). -/
def opcodeMap8 : List (Byte → Byte → Instr) := [
  fun b1 _ => .bra b1,
  fun b1 _ => .staIzx b1,
  fun _ _ => .undefined82,
  fun _ _ => .undefined83,
  fun b1 _ => .styZp b1,
  fun b1 _ => .staZp b1,
  fun b1 _ => .stxZp b1,
  fun b1 _ => .smb0 b1,
  fun _ _ => .dey,
  fun b1 _ => .bitImm b1,
  fun _ _ => .txa,
  fun _ _ => .undefined8B,
  fun b1 b2 => .styAbs b1 b2,
  fun b1 b2 => .staAbs b1 b2,
  fun b1 b2 => .stxAbs b1 b2,
  fun b1 b2 => .bbs0 b1 b2]

/-- The rows 0x90 to 0x9F of R66, each as the instruction its opcode and operand bytes `b1`, `b2` make (R62, R63). -/
def opcodeMap9 : List (Byte → Byte → Instr) := [
  fun b1 _ => .bcc b1,
  fun b1 _ => .staIzy b1,
  fun b1 _ => .staIzp b1,
  fun _ _ => .undefined93,
  fun b1 _ => .styZpx b1,
  fun b1 _ => .staZpx b1,
  fun b1 _ => .stxZpy b1,
  fun b1 _ => .smb1 b1,
  fun _ _ => .tya,
  fun b1 b2 => .staAbsy b1 b2,
  fun _ _ => .txs,
  fun _ _ => .undefined9B,
  fun b1 b2 => .stzAbs b1 b2,
  fun b1 b2 => .staAbsx b1 b2,
  fun b1 b2 => .stzAbsx b1 b2,
  fun b1 b2 => .bbs1 b1 b2]

/-- The rows 0xA0 to 0xAF of R66, each as the instruction its opcode and operand bytes `b1`, `b2` make (R62, R63). -/
def opcodeMapA : List (Byte → Byte → Instr) := [
  fun b1 _ => .ldyImm b1,
  fun b1 _ => .ldaIzx b1,
  fun b1 _ => .ldxImm b1,
  fun _ _ => .undefinedA3,
  fun b1 _ => .ldyZp b1,
  fun b1 _ => .ldaZp b1,
  fun b1 _ => .ldxZp b1,
  fun b1 _ => .smb2 b1,
  fun _ _ => .tay,
  fun b1 _ => .ldaImm b1,
  fun _ _ => .tax,
  fun _ _ => .undefinedAB,
  fun b1 b2 => .ldyAbs b1 b2,
  fun b1 b2 => .ldaAbs b1 b2,
  fun b1 b2 => .ldxAbs b1 b2,
  fun b1 b2 => .bbs2 b1 b2]

/-- The rows 0xB0 to 0xBF of R66, each as the instruction its opcode and operand bytes `b1`, `b2` make (R62, R63). -/
def opcodeMapB : List (Byte → Byte → Instr) := [
  fun b1 _ => .bcs b1,
  fun b1 _ => .ldaIzy b1,
  fun b1 _ => .ldaIzp b1,
  fun _ _ => .undefinedB3,
  fun b1 _ => .ldyZpx b1,
  fun b1 _ => .ldaZpx b1,
  fun b1 _ => .ldxZpy b1,
  fun b1 _ => .smb3 b1,
  fun _ _ => .clv,
  fun b1 b2 => .ldaAbsy b1 b2,
  fun _ _ => .tsx,
  fun _ _ => .undefinedBB,
  fun b1 b2 => .ldyAbsx b1 b2,
  fun b1 b2 => .ldaAbsx b1 b2,
  fun b1 b2 => .ldxAbsy b1 b2,
  fun b1 b2 => .bbs3 b1 b2]

/-- The rows 0xC0 to 0xCF of R66, each as the instruction its opcode and operand bytes `b1`, `b2` make (R62, R63). -/
def opcodeMapC : List (Byte → Byte → Instr) := [
  fun b1 _ => .cpyImm b1,
  fun b1 _ => .cmpIzx b1,
  fun _ _ => .undefinedC2,
  fun _ _ => .undefinedC3,
  fun b1 _ => .cpyZp b1,
  fun b1 _ => .cmpZp b1,
  fun b1 _ => .decZp b1,
  fun b1 _ => .smb4 b1,
  fun _ _ => .iny,
  fun b1 _ => .cmpImm b1,
  fun _ _ => .dex,
  fun _ _ => .waiRefused,
  fun b1 b2 => .cpyAbs b1 b2,
  fun b1 b2 => .cmpAbs b1 b2,
  fun b1 b2 => .decAbs b1 b2,
  fun b1 b2 => .bbs4 b1 b2]

/-- The rows 0xD0 to 0xDF of R66, each as the instruction its opcode and operand bytes `b1`, `b2` make (R62, R63). -/
def opcodeMapD : List (Byte → Byte → Instr) := [
  fun b1 _ => .bne b1,
  fun b1 _ => .cmpIzy b1,
  fun b1 _ => .cmpIzp b1,
  fun _ _ => .undefinedD3,
  fun _ _ => .undefinedD4,
  fun b1 _ => .cmpZpx b1,
  fun b1 _ => .decZpx b1,
  fun b1 _ => .smb5 b1,
  fun _ _ => .cld,
  fun b1 b2 => .cmpAbsy b1 b2,
  fun _ _ => .phx,
  fun _ _ => .stp,
  fun _ _ => .undefinedDC,
  fun b1 b2 => .cmpAbsx b1 b2,
  fun b1 b2 => .decAbsx b1 b2,
  fun b1 b2 => .bbs5 b1 b2]

/-- The rows 0xE0 to 0xEF of R66, each as the instruction its opcode and operand bytes `b1`, `b2` make (R62, R63). -/
def opcodeMapE : List (Byte → Byte → Instr) := [
  fun b1 _ => .cpxImm b1,
  fun b1 _ => .sbcIzx b1,
  fun _ _ => .undefinedE2,
  fun _ _ => .undefinedE3,
  fun b1 _ => .cpxZp b1,
  fun b1 _ => .sbcZp b1,
  fun b1 _ => .incZp b1,
  fun b1 _ => .smb6 b1,
  fun _ _ => .inx,
  fun b1 _ => .sbcImm b1,
  fun _ _ => .nop,
  fun _ _ => .undefinedEB,
  fun b1 b2 => .cpxAbs b1 b2,
  fun b1 b2 => .sbcAbs b1 b2,
  fun b1 b2 => .incAbs b1 b2,
  fun b1 b2 => .bbs6 b1 b2]

/-- The rows 0xF0 to 0xFF of R66, each as the instruction its opcode and operand bytes `b1`, `b2` make (R62, R63). -/
def opcodeMapF : List (Byte → Byte → Instr) := [
  fun b1 _ => .beq b1,
  fun b1 _ => .sbcIzy b1,
  fun b1 _ => .sbcIzp b1,
  fun _ _ => .undefinedF3,
  fun _ _ => .undefinedF4,
  fun b1 _ => .sbcZpx b1,
  fun b1 _ => .incZpx b1,
  fun b1 _ => .smb7 b1,
  fun _ _ => .sed,
  fun b1 b2 => .sbcAbsy b1 b2,
  fun _ _ => .plx,
  fun _ _ => .undefinedFB,
  fun _ _ => .undefinedFC,
  fun b1 b2 => .sbcAbsx b1 b2,
  fun b1 b2 => .incAbsx b1 b2,
  fun b1 b2 => .bbs7 b1 b2]

/-- The 256-entry opcode map (R60, R66), sixteen rows of sixteen: row and column are the opcode's two hex digits (R65). -/
def opcodeMap : List (List (Byte → Byte → Instr)) := [
  opcodeMap0, opcodeMap1, opcodeMap2, opcodeMap3, opcodeMap4, opcodeMap5, opcodeMap6, opcodeMap7,
  opcodeMap8, opcodeMap9, opcodeMapA, opcodeMapB, opcodeMapC, opcodeMapD, opcodeMapE, opcodeMapF]

theorem opcodeMap_size (h : Fin 16) : (opcodeMap[h]).length = 16 := by decide +revert

/-- The instruction of an opcode byte and two operand bytes; a shorter format ignores the bytes it does not have (R60). -/
def decodeOp (op b1 b2 : Byte) : Instr :=
  let h : Fin 16 := ⟨op.toNat / 16, by have := op.isLt; omega⟩
  (opcodeMap[h][op.toNat % 16]'(by rw [opcodeMap_size]; omega)) b1 b2

/-- The length in bytes that an opcode byte decides (R61: "A decoder tells the length from the first byte alone"). -/
def opcodeLength (op : Byte) : Nat := (decodeOp op 0 0).length

/-- Why a list of bytes is no instruction; with all bytes there every opcode decodes, an unassigned one to the row that
names it. -/
inductive DecodeError where
  /-- no byte at all -/
  | noOpcode
  /-- the opcode's operand bytes are not all there -/
  | missingOperand (opcode : Byte)
  deriving DecidableEq, Repr

/-- Decoding of a list of bytes: the instruction and the bytes after it (R60, R62, R69). -/
def decode : List Byte → Except DecodeError (Instr × List Byte)
  | [] => .error .noOpcode
  | op :: rest =>
    if rest.length + 1 < opcodeLength op then .error (.missingOperand op)
    else .ok (decodeOp op (rest.getD 0 0) (rest.getD 1 0), rest.drop (opcodeLength op - 1))

/-- The bytes of an instruction: its opcode, then its operand bytes (R63, R68). -/
def encode (i : Instr) : List Byte := i.opcode :: i.mode.bytes

/-- Byte number `k` of an instruction whose table bits are `w`, the bits from `nbits` on being 0: byte 0 is the first. -/
def tableByte (nbits w k : Nat) : Byte := BitVec.ofNat 8 ((w % 2 ^ nbits) >>> (8 * k))

/-- The first three bytes (the longest instruction) of a table word, in the order memory holds them. -/
def tableBytes (nbits w : Nat) : List Byte := [tableByte nbits w 0, tableByte nbits w 1, tableByte nbits w 2]

/-- The instruction the decoder reads from a table word. -/
def decodeTableWord (nbits w : Nat) : Option Instr :=
  match decode (tableBytes nbits w) with
  | .ok (i, _) => some i
  | .error _ => none

end Sys2Proof
end

