-- ==== Sys2Proof/Machine/State.lean ====
section
/-! DEFINITION. The machine's state as plain data: the register file (10_state.md R10 to R18) and the fabric
(20_memory.md R30); there is nothing else (R20). Its faults (60_exceptions.md R350), its refusals, and the state after
reset. -/

namespace Sys2Proof.Machine

/-- The four 8-bit registers that instructions move data through (10_state.md R10, R11). -/
inductive Reg where
  | a | x | y | sp
  deriving DecidableEq, Repr

/-- The stored bits of the status register P (10_state.md R13). Bit 5 is not storage: it reads 1 and no write reaches it
(R15), so it has no field (assumption log 2). The byte form is `Status.toByte` of Machine/Flags.lean. -/
structure Status where
  n : Bool
  v : Bool
  b : Bool
  d : Bool
  i : Bool
  z : Bool
  c : Bool
  deriving DecidableEq, Repr

/-- The kinds of subsystem (20_memory.md R30, R33, R34, R36). A peripheral carries its device number, which selects its
two functions in Config, and its private state. -/
inductive Kind where
  | ram
  | rom
  | peripheral (device privateState : Nat)
  deriving DecidableEq, Repr

/-- One subsystem: it owns the addresses from `base` on, `len` of them (R30). The bytes of RAM and ROM stand in
`State.mem`. -/
structure Region where
  kind : Kind
  base : Addr
  len : Nat
  deriving DecidableEq, Repr

/-- The bytes of RAM and ROM: (address, byte) pairs, addresses strictly rising, no byte equal to what an unlisted
address reads as (Memory.wf of Machine/Memory.lean). -/
abbrev Memory := List Host.Cell

/-- The whole state of the block. -/
structure State where
  /-- accumulator (R10) -/
  a : Byte
  /-- index register X (R10) -/
  x : Byte
  /-- index register Y (R10) -/
  y : Byte
  /-- stack pointer (R11) -/
  sp : Byte
  /-- status register (R13 to R16) -/
  p : Status
  /-- command pointer, the program counter (R12) -/
  cp : Addr
  /-- the 64-bit cycle counter (R17) -/
  cycleCount : BitVec 64
  /-- the fabric's list of subsystems (20_memory.md R30) -/
  regions : List Region
  /-- the contents of its RAM and ROM (R30, R33, R34) -/
  mem : Memory
  deriving DecidableEq, Repr

/-- The errors of 60_exceptions.md R350, with the payload that rule gives. A fault carries no state: the state after a
failed step is not to be relied on (R354; assumption log 7), which is safe. -/
inductive Fault where
  /-- Raised by a fabric read or write, and by the first byte of a slice, at an address in no subsystem's range (R38 to
  R41). Safe: the spec's own error. -/
  | unmappedAddress (addr : Addr)
  /-- Raised by a fabric write that reaches a ROM (R34, R39). Safe: the spec's own error. -/
  | writeToReadOnly (addr : Addr)
  /-- Raised by `attach` of a range that overlaps an existing one (R42), never inside a step (R351). Safe. -/
  | overlappingSubsystem (base len : Nat)
  /-- Raised by the decode of an opcode byte with no instruction (R352, 30_encoding.md R70, R71), before any write.
  Safe: the spec's own error. -/
  | unknownOpcode (opcode : Byte) (cp0 : Addr)
  /-- Raised by a slice operation that runs on into an unmapped address (R40, R41), never inside a step (R351). Safe. -/
  | crossBoundaryRead (addr : Addr) (len : Nat)
  /-- Raised by an access that lands in a peripheral, when the peripheral's own function reports an error (R351, R36;
  assumption log 6, 32). Safe: which accesses fail is left open by opaque functions of Config. -/
  | peripheralError (kind : ErrorKind) (addr : Addr)
  deriving DecidableEq, Repr

/-- Why a step has no meaning. No meaning of this model refuses: every row of the opcode table runs or fails as the spec
says. -/
inductive Refusal where
  /-- Raised by `exec` alone, for an instruction that has no meaning yet, under its mnemonic in the opcode table. Safe.
  No arm of `exec` uses it. -/
  | notModelled (mnemonic : String)
  deriving DecidableEq, Repr

/-- The outcome of one step. -/
abbrev Result := Host.Outcome State Fault Refusal

/-- The status byte after `flush`: `nv-Bdizc`, 0b00110000 (10_state.md R21, 70_reset_and_hazards.md R390). -/
def Status.flushed : Status :=
  { n := false, v := false, b := true, d := false, i := false, z := false, c := false }

/-- The state after reset, which is `marker` (70_reset_and_hazards.md R395): the register file after `flush` (R390) and
the fabric after its `reset()` (20_memory.md R43), one RAM of 64 KiB with every byte 0x00. -/
def State.reset : State :=
  { a := 0x00
    x := 0x00
    y := 0x00
    sp := 0xFF
    p := Status.flushed
    cp := 0x0000
    cycleCount := 0
    regions := [{ kind := .ram, base := 0x0000, len := 0x10000 }]
    mem := [] }

end Sys2Proof.Machine
end

