-- ==== Sys2Proof/Machine/Memory.lean ====
section
/-! DEFINITION. The store of RAM and ROM bytes in its canonical form (assumption log 1). An unlisted address reads
0x00: RAM is zero-initialised when it is created (20_memory.md R33, R43, R44). -/

namespace Sys2Proof.Machine

/-- What an address that is not listed reads as (R33, R44). -/
def Memory.unlisted : Byte := 0x00

/-- The byte at an address. -/
def Memory.read : Memory → Nat → Byte
  | [], _ => Memory.unlisted
  | (k, b) :: rest, a => if k = a then b else Memory.read rest a

/-- The store with one byte replaced, in canonical form: writing what an unlisted address reads as removes the entry. -/
def Memory.write : Memory → Nat → Byte → Memory
  | [], a, v => if v = Memory.unlisted then [] else [(a, v)]
  | (k, b) :: rest, a, v =>
    if a < k then (if v = Memory.unlisted then (k, b) :: rest else (a, v) :: (k, b) :: rest)
    else if a = k then (if v = Memory.unlisted then rest else (k, v) :: rest)
    else (k, b) :: Memory.write rest a v

/-- All addresses of a list are above `a`. -/
def Memory.above (a : Nat) (m : Memory) : Bool := m.all fun c => decide (a < c.1)

/-- The canonical form: addresses strictly rising, 16 bits wide, and no entry equal to what an unlisted address reads
as. -/
def Memory.wf : Memory → Bool
  | [] => true
  | (k, b) :: rest => decide (k < 65536) && decide (b ≠ Memory.unlisted) && Memory.above k rest && Memory.wf rest

/-- The store without the entries of the addresses from `base` on, `len` of them. -/
def Memory.clear (m : Memory) (base len : Nat) : Memory :=
  m.filter fun c => ! (decide (base ≤ c.1) && decide (c.1 < base + len))

end Sys2Proof.Machine
end

