-- ==== Sys2Proof/Machine/Fabric.lean ====
section
/-! DEFINITION. The memory fabric (20_memory.md R30 to R39): routing an access to the one subsystem that owns the
address, and the one-byte read and write every engine access is made of (R46, R47). -/

namespace Sys2Proof.Machine

/-- What an access answers: a value and the state after it, or the fabric's error (R46, 60_exceptions.md R353). A read
has a state after it because a peripheral's read may change the peripheral (R36). -/
abbrev Access (α : Type) := Except Fault (α × State)

/-- Go on with an access's value and the state after it; an error ends the operation unchanged (R46, R353). -/
def withAnswer {α β : Type} (r : Access α) (f : α → State → Except Fault β) : Except Fault β :=
  match r with
  | .ok (v, s) => f v s
  | .error e => .error e

/-- Go on with the state after a write; an error ends the operation unchanged (R46, R353). -/
def withState {β : Type} (r : Except Fault State) (f : State → Except Fault β) : Except Fault β :=
  match r with
  | .ok s => f s
  | .error e => .error e

/-- The range `[base, base + len)` holds the address (R30, R37). -/
def Region.holds (r : Region) (a : Addr) : Bool :=
  decide (r.base.toNat ≤ a.toNat) && decide (a.toNat < r.base.toNat + r.len)

/-- The offset a subsystem receives (R30, decision D21). -/
def Region.offset (r : Region) (a : Addr) : Nat := a.toNat - r.base.toNat

/-- `lookup(addr)`: the subsystem whose range holds the address; at most one does when the ranges are disjoint (R37). -/
def lookup (rs : List Region) (a : Addr) : Option Region := rs.find? fun r => r.holds a

/-- A region whose peripheral's private state is replaced; RAM and ROM have none. -/
def Region.withPrivateState (r : Region) (st : Nat) : Region :=
  match r.kind with
  | .ram => r
  | .rom => r
  | .peripheral dev _ => { r with kind := .peripheral dev st }

/-- The list of subsystems after the one that owns `a` has moved to the private state `st`. -/
def movePeripheral : List Region → Addr → Nat → List Region
  | [], _, _ => []
  | r :: rs, a, st => if r.holds a then r.withPrivateState st :: rs else r :: movePeripheral rs a st

/-- The byte of RAM or ROM at an address, without an access: none where the address is unmapped or a peripheral's. -/
def peek (s : State) (a : Addr) : Option Byte :=
  match lookup s.regions a with
  | none => none
  | some r =>
    match r.kind with
    | .ram => some (Memory.read s.mem a.toNat)
    | .rom => some (Memory.read s.mem a.toNat)
    | .peripheral _ _ => none

/-- The state with another list of subsystems. -/
def setRegions (rs : List Region) (s : State) : State := { s with regions := rs }

/-- The state with another store. -/
def setMem (m : Memory) (s : State) : State := { s with mem := m }

/-- The fabric's `read` (R38): the byte or an error, and the state it leaves. A peripheral's private state moves with
either (R36). -/
def fabricRead (a : Addr) (s : State) : Except Fault Byte × State :=
  match lookup s.regions a with
  | none => (.error (.unmappedAddress a), s)
  | some r =>
    match r.kind with
    | .ram => (.ok (Memory.read s.mem a.toNat), s)
    | .rom => (.ok (Memory.read s.mem a.toNat), s)
    | .peripheral dev st =>
      let answer := Config.periphRead dev st (r.offset a)
      (answer.1.mapError fun kind => .peripheralError kind a, setRegions (movePeripheral s.regions a answer.2) s)

/-- The fabric's `write` (R39): its error if it has one, and the state it leaves. A peripheral's write gives a private state
whether it fails or not: "does what the peripheral does" (R36, R39). -/
def fabricWrite (a : Addr) (v : Byte) (s : State) : Option Fault × State :=
  match lookup s.regions a with
  | none => (some (.unmappedAddress a), s)
  | some r =>
    match r.kind with
    | .ram => (none, setMem (Memory.write s.mem a.toNat v) s)
    | .rom => (some (.writeToReadOnly a), s)
    | .peripheral dev st =>
      let answer := Config.periphWrite dev st (r.offset a) v
      (answer.1.map fun kind => .peripheralError kind a, setRegions (movePeripheral s.regions a answer.2) s)

/-- `MemRead(addr, 1)`: the fabric's `read` inside a step, which its error ends without a state (R46, assumption log 7). -/
def memRead (a : Addr) (s : State) : Access Byte :=
  match fabricRead a s with
  | (.ok v, t) => .ok (v, t)
  | (.error f, _) => .error f

/-- `MemWrite(addr, 1, v)`: the fabric's `write` inside a step, which its error ends without a state (R46, assumption
log 7). -/
def memWrite (a : Addr) (v : Byte) (s : State) : Except Fault State :=
  match fabricWrite a v s with
  | (none, t) => .ok t
  | (some f, _) => .error f

/-- `MemRead16(addr)`: low byte first, the high byte from the next address modulo 65536 (00_scope.md R8, R48). -/
def memRead16 (a : Addr) (s : State) : Access Addr :=
  withAnswer (memRead a s) fun lo s1 =>
  withAnswer (memRead (a + 1) s1) fun hi s2 =>
  .ok (word lo hi, s2)

/-- `MemRead16zp(z)`: both bytes in page 0, the high byte from `(z + 1) mod 256` (40_addressing_modes.md R101). -/
def memRead16zp (z : Byte) (s : State) : Access Addr :=
  withAnswer (memRead (zext16 z) s) fun lo s1 =>
  withAnswer (memRead (zext16 (z + 1)) s1) fun hi s2 =>
  .ok (word lo hi, s2)

end Sys2Proof.Machine
end

