-- ==== Sys2Proof/Machine/Params.lean ====
section
/-! DEFINITION. The reference values of the parameters of 00_scope.md R6 that the spec closes. The operations that
depend on one take it as an argument, so both readings are implemented; the meanings pass the value given here. -/

namespace Sys2Proof.Config

/-- `BRANCH_PAGE_BASE`, reference value (decision D7; assumption log 11). -/
def branchPageBase : BranchPageBase := .opcodeAddress

/-- `BIT_FLAGS`, reference value (decision D9; assumption log 12). -/
def bitFlags : BitFlags := .w65c02

/-- `PULL_B`, reference value (decision D10; assumption log 13). -/
def pullB : PullB := .keep

/-- `NOP_SLOTS`, reference value: no unassigned opcode is a no-operation (decision D2; assumption log 18). -/
def nopSlots : List NopSlot := []

/-- `WAI_POLICY`, its only value (decision D3; assumption log 18). -/
def waiPolicy : WaiPolicy := .refuse

/-- `PAGE_PENALTY_SET`, reference value (40_addressing_modes.md R110, decision D6; assumption log 10): the rows of R66 that
add one cycle when the index crosses a page. -/
def pagePenaltySet : List (Mnemonic × ModeTag) := [
  (.lda, .absx), (.lda, .absy), (.lda, .izy), (.ldx, .absy), (.ldy, .absx),
  (.adc, .absx), (.adc, .absy), (.adc, .izy), (.sbc, .absx), (.sbc, .absy), (.sbc, .izy),
  (.and, .absx), (.and, .absy), (.and, .izy), (.ora, .absx), (.ora, .absy), (.ora, .izy),
  (.eor, .absx), (.eor, .absy), (.eor, .izy), (.cmp, .absx), (.cmp, .absy), (.cmp, .izy),
  (.bit, .absx), (.asl, .absx), (.lsr, .absx), (.rol, .absx), (.ror, .absx)]

/-- `TERMINAL_RULE`, reference value (decision D15; assumption log 16). -/
def terminalRule : TerminalRule := .stpOrCpUnchanged

/-- `RUN_GUARD`, reference value (decision D15; assumption log 17). -/
def runGuard : RunGuard := .always

end Sys2Proof.Config
end

