-- ==== Sys2Proof/Machine/Flags.lean ====
section
/-! DEFINITION. Every flag computation of the spec: the status byte (10_state.md R13, R15), N and Z from a result
(00_scope.md R8), the adder and the decimal functions (42_arithmetic.md R150 to R153), BIT (43_logic_bit.md R173),
the shifts (44_shift_rotate.md R200 to R204), the compares (46_compare.md R243), and pushing and pulling P. -/

namespace Sys2Proof.Machine

/-- The byte `mask` if the flag is set, else 0. -/
def flagBit (mask : Byte) (set : Bool) : Byte := if set then mask else 0x00

/-- P as a byte: N V 1 B D I Z C from bit 7 down to bit 0; bit 5 reads 1 (R13, R15). -/
def Status.toByte (p : Status) : Byte :=
  flagBit 0x80 p.n ||| flagBit 0x40 p.v ||| 0x20 ||| flagBit 0x10 p.b ||| flagBit 0x08 p.d |||
    flagBit 0x04 p.i ||| flagBit 0x02 p.z ||| flagBit 0x01 p.c

/-- The stored bits of a byte written whole to P; bit 5 is ignored (R15, R396). -/
def Status.ofByte (w : Byte) : Status :=
  { n := w.getLsbD 7, v := w.getLsbD 6, b := w.getLsbD 4, d := w.getLsbD 3, i := w.getLsbD 2, z := w.getLsbD 1,
    c := w.getLsbD 0 }

/-- The byte PHP and BRK push: P with bits 4 and 5 set (R307, R284). -/
def Status.pushed (p : Status) : Byte := p.toByte ||| 0x30

/-- P after PLP or RTI pulled the byte `w`: N V D I Z C from it, bit 5 stays 1, and B as `PULL_B` says (R308, R283). -/
def Status.pulled (rule : PullB) (w : Byte) (p : Status) : Status :=
  { Status.ofByte w with
    b := match rule with
      | .keep => p.b
      | .load => w.getLsbD 4 }

/-- `SetNZ(v)`: N is bit 7, Z is set exactly when the value is zero (00_scope.md R8). -/
def Status.setNZ (r : Byte) (p : Status) : Status := { p with n := r.getLsbD 7, z := decide (r = 0) }

/-- The flags an addition or subtraction writes; D, I and B are unchanged (R151). -/
def Status.setArith (r : ArithResult) (p : Status) : Status := { p with n := r.n, v := r.v, z := r.z, c := r.c }

/-- `AddBinary(a, m, c)`: the nine-bit sum and its four flags (R150). -/
def addBinary (a m : Byte) (c : Bool) : ArithResult :=
  let sum := a.toNat + m.toNat + c.toNat
  let result := BitVec.ofNat 8 sum
  { result := result
    n := result.getLsbD 7
    v := decide ((a ^^^ result) &&& (m ^^^ result) &&& 0x80 ≠ 0)
    z := decide (result = 0)
    c := decide (256 ≤ sum) }

/-- Binary subtraction: the adder fed the operand's one's complement (R152, decision D23). -/
def subBinary (a m : Byte) (c : Bool) : ArithResult := addBinary a (m ^^^ 0xFF) c

/-- `DEC_ARITH.adc` as the machine uses it: the open parameter (R153, assumption log 4). -/
def decimalAdc (a m : Byte) (c : Bool) : ArithResult := Config.decAdc a m c

/-- `DEC_ARITH.sbc` as the machine uses it: the open parameter (R153, assumption log 4). -/
def decimalSbc (a m : Byte) (c : Bool) : ArithResult := Config.decSbc a m c

/-- The reference value of `DEC_ARITH.adc`, the W65C02S packed BCD addition (R153). The machine does not use it: the
parameter is open (D8), and a claim about it names it as a property of `decimalAdc`. -/
def decAdcReference (a m : Byte) (c : Bool) : ArithResult :=
  let al0 := (a &&& 0x0F).toNat + (m &&& 0x0F).toNat + c.toNat
  let al := if 0x0A ≤ al0 then (al0 + 0x06) % 16 + 0x10 else al0
  let s0 := (a &&& 0xF0).toNat + (m &&& 0xF0).toNat + al
  let ss : Int := (a &&& 0xF0).toInt + (m &&& 0xF0).toInt + (al : Int)
  let s := if 0xA0 ≤ s0 then s0 + 0x60 else s0
  let result := BitVec.ofNat 8 s
  { result := result
    n := result.getLsbD 7
    v := decide (ss < -128 ∨ 127 < ss)
    z := decide (result = 0)
    c := decide (0x100 ≤ s) }

/-- The reference value of `DEC_ARITH.sbc`, the W65C02S packed BCD subtraction (R153); C and V are the binary ones. -/
def decSbcReference (a m : Byte) (c : Bool) : ArithResult :=
  let binary := subBinary a m c
  let al : Int := (a &&& 0x0F).toNat - (m &&& 0x0F).toNat + c.toNat - 1
  let s0 : Int := a.toNat - m.toNat + c.toNat - 1
  let s1 := if s0 < 0 then s0 - 0x60 else s0
  let s2 := if al < 0 then s1 - 0x06 else s1
  let result := BitVec.ofInt 8 s2
  { result := result
    n := result.getLsbD 7
    v := binary.v
    z := decide (result = 0)
    c := binary.c }

/-- ADC's result: binary with D = 0, `DEC_ARITH` with D = 1 (R151). -/
def adcResult (p : Status) (a m : Byte) : ArithResult := if p.d then decimalAdc a m p.c else addBinary a m p.c

/-- SBC's result: binary with D = 0, `DEC_ARITH` with D = 1 (R152). -/
def sbcResult (p : Status) (a m : Byte) : ArithResult := if p.d then decimalSbc a m p.c else subBinary a m p.c

/-- `Compare(reg, M)`: C, Z and N; V is not written (R243). -/
def Status.compare (reg m : Byte) (p : Status) : Status :=
  { p with c := decide (m.toNat ≤ reg.toNat), z := decide (reg = m), n := (reg - m).getLsbD 7 }

/-- The flags of BIT for the two readings of `BIT_FLAGS`; `immediate` tells the immediate form (R173). -/
def Status.bitTest (rule : BitFlags) (immediate : Bool) (a m : Byte) (p : Status) : Status :=
  match rule, immediate with
  | .w65c02, true => { p with z := decide (a &&& m = 0) }
  | .w65c02, false => { p with z := decide (a &&& m = 0), n := m.getLsbD 7, v := m.getLsbD 6 }
  | .literal, _ => { p with z := decide (a &&& m = 0), n := (a &&& m).getLsbD 7, v := m.getLsbD 6 }

/-- The Z flag of TSB and TRB, from the byte before the write (R174, R175). -/
def Status.testZ (a m : Byte) (p : Status) : Status := { p with z := decide (a &&& m = 0) }

/-- What a shift or rotate gives: the shifted byte and the bit shifted out. -/
structure ShiftResult where
  result : Byte
  carry : Bool
  deriving DecidableEq, Repr

/-- ASL: bit 0 becomes 0, the carry is the old bit 7 (R200). -/
def aslByte (_c : Bool) (m : Byte) : ShiftResult := { result := m <<< 1, carry := m.getLsbD 7 }

/-- LSR: bit 7 becomes 0, the carry is the old bit 0 (R201). -/
def lsrByte (_c : Bool) (m : Byte) : ShiftResult := { result := m >>> 1, carry := m.getLsbD 0 }

/-- ROL: the old carry enters bit 0, the carry is the old bit 7 (R202). -/
def rolByte (c : Bool) (m : Byte) : ShiftResult := { result := m <<< 1 ||| flagBit 0x01 c, carry := m.getLsbD 7 }

/-- ROR: the old carry enters bit 7, the carry is the old bit 0 (R203). -/
def rorByte (c : Bool) (m : Byte) : ShiftResult := { result := m >>> 1 ||| flagBit 0x80 c, carry := m.getLsbD 0 }

/-- "set C from the shifted-out bit, then N and Z from result" (R204). -/
def Status.setShift (r : ShiftResult) (p : Status) : Status := Status.setNZ r.result { p with c := r.carry }

end Sys2Proof.Machine
end

