-- ==== Sys2Proof/Machine/Ops.lean ====
section
/-! DEFINITION. The named operations over registers and the stack, how an instruction ends (40_addressing_modes.md R90,
R112), BRK's entry and RTI's return (60_exceptions.md R360, R361), and fetching an instruction (30_encoding.md R60,
R62). -/

namespace Sys2Proof.Machine

/-- Reading a register: none has a special read (10_state.md R10, R11). -/
def State.reg (s : State) : Reg → Byte
  | .a => s.a
  | .x => s.x
  | .y => s.y
  | .sp => s.sp

/-- Writing a register. -/
def setReg (r : Reg) (v : Byte) (s : State) : State :=
  match r with
  | .a => { s with a := v }
  | .x => { s with x := v }
  | .y => { s with y := v }
  | .sp => { s with sp := v }

def setStatus (p : Status) (s : State) : State := { s with p := p }

/-- N and Z of P from a value (00_scope.md R8). -/
def setNZ (v : Byte) (s : State) : State := setStatus (Status.setNZ v s.p) s

def setCp (target : Addr) (s : State) : State := { s with cp := target }

/-- `cycle_count <- cycle_count + consumed` (40_addressing_modes.md R112); 64 bits (10_state.md R17). -/
def addCycles (consumed : Nat) (s : State) : State := { s with cycleCount := s.cycleCount + BitVec.ofNat 64 consumed }

/-- The end of an instruction that is not a control transfer: `CP <- (cp0 + len) mod 65536`, then the cycles (R90). -/
def advance (len consumed : Nat) (s : State) : State := addCycles consumed (setCp (offsetAddr s.cp len) s)

/-- The end of a control transfer: `CP <- target`, then the cycles (R90). -/
def jumpTo (target : Addr) (consumed : Nat) (s : State) : State := addCycles consumed (setCp target s)

/-- A step's outcome: the next state, or the error unchanged (60_exceptions.md R353). -/
def toResult : Except Fault State → Result
  | .ok s => .next s
  | .error f => .fault f

/-- `Push(v)`: write at `0x0100 | SP`, then decrement SP modulo 256 (49_stack_flags_misc.md R300). -/
def push (v : Byte) (s : State) : Except Fault State :=
  withState (memWrite (stackAddr s.sp) v s) fun s1 =>
  .ok (setReg .sp (s1.sp - 1) s1)

/-- `Pull()`: increment SP modulo 256, then read at `0x0100 | SP` (R300). -/
def pull (s : State) : Access Byte :=
  let s1 := setReg .sp (s.sp + 1) s
  memRead (stackAddr s1.sp) s1

/-- A 16-bit value pushed high byte first, so that it lies little-endian in memory (48_jump_subroutine.md R281, R284). -/
def pushWord (w : Addr) (s : State) : Except Fault State :=
  withState (push (highByte w) s) fun s1 =>
  push (lowByte w) s1

/-- A 16-bit value pulled low byte first (R282, R283). -/
def pullWord (s : State) : Access Addr :=
  withAnswer (pull s) fun lo s1 =>
  withAnswer (pull s1) fun hi s2 =>
  .ok (word lo hi, s2)

/-- The address of the BRK vector's low byte (20_memory.md R50). -/
def brkVector : Addr := 0xFFFE

/-- TAKING THE ONE TRAP, BRK (R284, R360): push `cp0 + 2` and `P | 0x30`, set I, clear D, load CP from the vector. -/
def takeBreak (s : State) : Except Fault State :=
  withState (pushWord (offsetAddr s.cp 2) s) fun s1 =>
  withState (push s1.p.pushed s1) fun s2 =>
  let s3 := setStatus { s2.p with i := true, d := false } s2
  withAnswer (memRead16 brkVector s3) fun target s4 =>
  .ok (setCp target s4)

/-- THE RETURN FROM IT, RTI (R283, R361): pull P, B and bit 5 aside, then CP, low byte first, with no + 1. -/
def returnFromBreak (s : State) : Except Fault State :=
  withAnswer (pull s) fun w s1 =>
  let s2 := setStatus (Status.pulled Config.pullB w s1.p) s1
  withAnswer (pullWord s2) fun target s3 =>
  .ok (setCp target s3)

/-- The member of `NOP_SLOTS` an opcode is, if it is one (30_encoding.md R70). -/
def nopSlot (slots : List NopSlot) (op : Byte) : Option NopSlot := slots.find? fun n => decide (n.opcode = op)

/-- How many bytes a step fetches for an opcode: its length, or its slot's (R61, R62, R70). -/
def fetchLength (op : Byte) : Nat :=
  match nopSlot Config.nopSlots op with
  | some slot => slot.length
  | none => opcodeLength op

/-- One operand byte, read only when the instruction is long enough to have it (R62). -/
def fetchOperand (present : Bool) (a : Addr) (s : State) : Access Byte :=
  if present then memRead a s else .ok (0, s)

/-- Steps 1 and 2 of R90: the opcode byte, then the operand bytes `b1` and `b2` in that order; CP still holds `cp0`. -/
def fetch (s : State) : Access Instr :=
  withAnswer (memRead s.cp s) fun op s1 =>
  withAnswer (fetchOperand (decide (2 ≤ fetchLength op)) (offsetAddr s.cp 1) s1) fun b1 s2 =>
  withAnswer (fetchOperand (decide (3 ≤ fetchLength op)) (offsetAddr s.cp 2) s2) fun b2 s3 =>
  .ok (decodeOp op b1 b2, s3)

/-- The state with one byte of RAM or ROM set to `v`, whatever is there: how a program's bytes come to be in memory before
a step (assumption log 20). An unmapped address becomes a one-byte RAM; a peripheral is left alone. -/
def placeByte (a : Addr) (v : Byte) (s : State) : State :=
  match lookup s.regions a with
  | none => setRegions (s.regions ++ [{ kind := .ram, base := a, len := 1 }]) (setMem (Memory.write s.mem a.toNat v) s)
  | some r =>
    match r.kind with
    | .ram => setMem (Memory.write s.mem a.toNat v) s
    | .rom => setMem (Memory.write s.mem a.toNat v) s
    | .peripheral _ _ => s

end Sys2Proof.Machine
end

