-- ==== Sys2Proof/Machine/Operands.lean ====
section
/-! DEFINITION. Every operand form of 40_addressing_modes.md section 2 (R91 to R109), the read, write and
read-modify-write use of an operand (R108), and the cycle penalties (R110 to R112). No mode changes a register (R109). -/

namespace Sys2Proof.Machine

/-- What resolving an address mode gives: the effective address and the page-crossing flag (R90 step 3). -/
structure Resolved where
  ea : Addr
  crossed : Bool
  deriving DecidableEq, Repr

/-- Two addresses lie in different pages (R98). -/
def crosses (base target : Addr) : Bool := decide (page base ≠ page target)

/-- The effective address of a mode that computes one (R94 to R105). -/
def resolve (m : AddrMode) (s : State) : Access Resolved :=
  match m with
  | .zp z => .ok (⟨zext16 z, false⟩, s)
  | .zpx z => .ok (⟨zext16 (z + s.x), false⟩, s)
  | .zpy z => .ok (⟨zext16 (z + s.y), false⟩, s)
  | .abs lo hi => .ok (⟨word lo hi, false⟩, s)
  | .absx lo hi => .ok (⟨word lo hi + zext16 s.x, crosses (word lo hi) (word lo hi + zext16 s.x)⟩, s)
  | .absy lo hi => .ok (⟨word lo hi + zext16 s.y, crosses (word lo hi) (word lo hi + zext16 s.y)⟩, s)
  | .ind lo hi =>
    withAnswer (memRead16 (word lo hi) s) fun ea s1 =>
    .ok (⟨ea, false⟩, s1)
  | .izx z =>
    withAnswer (memRead16zp (z + s.x) s) fun ea s1 =>
    .ok (⟨ea, false⟩, s1)
  | .izy z =>
    withAnswer (memRead16zp z s) fun base s1 =>
    .ok (⟨base + zext16 s.y, crosses base (base + zext16 s.y)⟩, s1)
  | .izp z =>
    withAnswer (memRead16zp z s) fun ea s1 =>
    .ok (⟨ea, false⟩, s1)
  | .iax lo hi =>
    withAnswer (memRead16 (word lo hi + zext16 s.x) s) fun ea s1 =>
    .ok (⟨ea, false⟩, s1)

/-- The operand of a read-type instruction: an immediate value or a memory byte (R108). -/
inductive Source where
  | imm (imm8 : Byte)
  | mem (m : AddrMode)
  deriving DecidableEq, Repr

/-- The length of an instruction with this address mode (30_encoding.md R61). -/
def modeLength (m : AddrMode) : Nat := m.tag.length

/-- The length of an instruction with this operand (R61). -/
def Source.length : Source → Nat
  | .imm _ => 2
  | .mem m => modeLength m

/-- The operand's value and the page-crossing flag. -/
structure Operand where
  value : Byte
  crossed : Bool
  deriving DecidableEq, Repr

/-- `M = operand()`: the immediate value, else one read of the effective address (R93, R108). -/
def readSource (src : Source) (s : State) : Access Operand :=
  match src with
  | .imm v => .ok (⟨v, false⟩, s)
  | .mem m =>
    withAnswer (resolve m s) fun r s1 =>
    withAnswer (memRead r.ea s1) fun v s2 =>
    .ok (⟨v, r.crossed⟩, s2)

/-- The operand of an instruction that reads one: the immediate value or the memory byte its mode names (R93, R108). -/
def modeSource : Mode → Option Source
  | .imm v => some (.imm v)
  | .mem m => some (.mem m)
  | .imp => none
  | .acc => none
  | .rel _ => none
  | .zprel _ _ => none
  | .illegal => none

/-- The address mode of an instruction that has a memory operand. -/
def modeAddress : Mode → Option AddrMode
  | .mem m => some m
  | .imm _ => none
  | .imp => none
  | .acc => none
  | .rel _ => none
  | .zprel _ _ => none
  | .illegal => none

/-- The target of a relative branch: `(cp0 + 2 + sext_8(b1)) mod 65536` (R106). -/
def relTarget (cp0 : Addr) (rel8 : Byte) : Addr := cp0 + 2 + sext16 rel8

/-- The target of BBRn and BBSn: `(cp0 + 3 + sext_8(b2)) mod 65536` (R107). -/
def zprelTarget (cp0 : Addr) (rel8 : Byte) : Addr := cp0 + 3 + sext16 rel8

/-- The page-crossing flag of a branch of `len` bytes, for the two values of `BRANCH_PAGE_BASE` (R106, R262). -/
def branchCrossed (rule : BranchPageBase) (cp0 : Addr) (len : Nat) (target : Addr) : Bool :=
  match rule with
  | .opcodeAddress => crosses cp0 target
  | .nextInstruction => crosses (offsetAddr cp0 len) target

/-- The cycle of a page crossing. -/
def pageCycle (crossed : Bool) : Nat := if crossed then 1 else 0

/-- The instruction is in `PAGE_PENALTY_SET` (R110). -/
def paysPageCycle (set : List (Mnemonic × ModeTag)) (i : Instr) : Bool := decide ((i.mnemonic, i.mode.tag) ∈ set)

/-- The cycles of an instruction with a memory operand, from the page-crossing flag: its base count, and one more when it
crosses a page and is in `PAGE_PENALTY_SET` (R110, R112). -/
def cyclesOf (i : Instr) (crossed : Bool) : Nat :=
  i.baseCycles + pageCycle (crossed && paysPageCycle Config.pagePenaltySet i)

/-- The decimal cycle of ADC and SBC, from D at the start of the step (42_arithmetic.md R154). -/
def decimalCycle (p : Status) : Nat := if p.d then 1 else 0

/-- The extra cycles of a taken branch: one, and one more if it crosses a page (R111). -/
def takenCycles (crossed : Bool) : Nat := 1 + pageCycle crossed

end Sys2Proof.Machine
end

