-- ==== Sys2Proof/Machine/Arith.lean ====
section
/-! DEFINITION. ADC SBC (42_arithmetic.md R150 to R154). -/

namespace Sys2Proof.Machine

/-- The common shape of ADC and SBC: A and the flags N V Z C from the result; one cycle more with D = 1 (R151, R154). -/
def arith (f : Status → Byte → Byte → ArithResult) (src : Source) (cycles : Bool → Nat) (s : State) : Result :=
  toResult <|
    withAnswer (readSource src s) fun o s1 =>
    let r := f s1.p s1.a o.value
    .ok (advance src.length (cycles o.crossed + decimalCycle s1.p)
      (setStatus (Status.setArith r s1.p) (setReg .a r.result s1)))

/-- ADC ($zz,X), opcode 0x61 (R151). -/
def execAdcIzx (zp8 : Byte) (s : State) : Result := arith adcResult (.mem (.izx zp8)) (cyclesOf (.adcIzx zp8)) s

/-- ADC $zz, opcode 0x65 (R151). -/
def execAdcZp (zp8 : Byte) (s : State) : Result := arith adcResult (.mem (.zp zp8)) (cyclesOf (.adcZp zp8)) s

/-- ADC #$nn, opcode 0x69 (R151). -/
def execAdcImm (imm8 : Byte) (s : State) : Result := arith adcResult (.imm imm8) (cyclesOf (.adcImm imm8)) s

/-- ADC $hhll, opcode 0x6D (R151). -/
def execAdcAbs (lo hi : Byte) (s : State) : Result := arith adcResult (.mem (.abs lo hi)) (cyclesOf (.adcAbs lo hi)) s

/-- ADC ($zz),Y, opcode 0x71 (R151). -/
def execAdcIzy (zp8 : Byte) (s : State) : Result := arith adcResult (.mem (.izy zp8)) (cyclesOf (.adcIzy zp8)) s

/-- ADC ($zz), opcode 0x72 (R151). -/
def execAdcIzp (zp8 : Byte) (s : State) : Result := arith adcResult (.mem (.izp zp8)) (cyclesOf (.adcIzp zp8)) s

/-- ADC $zz,X, opcode 0x75 (R151). -/
def execAdcZpx (zp8 : Byte) (s : State) : Result := arith adcResult (.mem (.zpx zp8)) (cyclesOf (.adcZpx zp8)) s

/-- ADC $hhll,Y, opcode 0x79 (R151). -/
def execAdcAbsy (lo hi : Byte) (s : State) : Result := arith adcResult (.mem (.absy lo hi)) (cyclesOf (.adcAbsy lo hi)) s

/-- ADC $hhll,X, opcode 0x7D (R151). -/
def execAdcAbsx (lo hi : Byte) (s : State) : Result := arith adcResult (.mem (.absx lo hi)) (cyclesOf (.adcAbsx lo hi)) s

/-- SBC ($zz,X), opcode 0xE1 (R152). -/
def execSbcIzx (zp8 : Byte) (s : State) : Result := arith sbcResult (.mem (.izx zp8)) (cyclesOf (.sbcIzx zp8)) s

/-- SBC $zz, opcode 0xE5 (R152). -/
def execSbcZp (zp8 : Byte) (s : State) : Result := arith sbcResult (.mem (.zp zp8)) (cyclesOf (.sbcZp zp8)) s

/-- SBC #$nn, opcode 0xE9 (R152). -/
def execSbcImm (imm8 : Byte) (s : State) : Result := arith sbcResult (.imm imm8) (cyclesOf (.sbcImm imm8)) s

/-- SBC $hhll, opcode 0xED (R152). -/
def execSbcAbs (lo hi : Byte) (s : State) : Result := arith sbcResult (.mem (.abs lo hi)) (cyclesOf (.sbcAbs lo hi)) s

/-- SBC ($zz),Y, opcode 0xF1 (R152). -/
def execSbcIzy (zp8 : Byte) (s : State) : Result := arith sbcResult (.mem (.izy zp8)) (cyclesOf (.sbcIzy zp8)) s

/-- SBC ($zz), opcode 0xF2 (R152). -/
def execSbcIzp (zp8 : Byte) (s : State) : Result := arith sbcResult (.mem (.izp zp8)) (cyclesOf (.sbcIzp zp8)) s

/-- SBC $zz,X, opcode 0xF5 (R152). -/
def execSbcZpx (zp8 : Byte) (s : State) : Result := arith sbcResult (.mem (.zpx zp8)) (cyclesOf (.sbcZpx zp8)) s

/-- SBC $hhll,Y, opcode 0xF9 (R152). -/
def execSbcAbsy (lo hi : Byte) (s : State) : Result := arith sbcResult (.mem (.absy lo hi)) (cyclesOf (.sbcAbsy lo hi)) s

/-- SBC $hhll,X, opcode 0xFD (R152). -/
def execSbcAbsx (lo hi : Byte) (s : State) : Result := arith sbcResult (.mem (.absx lo hi)) (cyclesOf (.sbcAbsx lo hi)) s

end Sys2Proof.Machine
end

