-- ==== Sys2Proof/Machine/BitOps.lean ====
section
/-! DEFINITION. TSB TRB RMBn SMBn (43_logic_bit.md R174 to R177). -/

namespace Sys2Proof.Machine

/-- TSB and TRB: read, Z from A and the byte read, write (R174, R175). `f` gives the byte written from A and the byte
read. -/
def testAndWrite (f : Byte → Byte → Byte) (m : AddrMode) (cycles : Bool → Nat) (s : State) : Result :=
  toResult <|
    withAnswer (resolve m s) fun r s1 =>
    withAnswer (memRead r.ea s1) fun v s2 =>
    withState (memWrite r.ea (f s2.a v) (setStatus (Status.testZ s2.a v s2.p) s2)) fun s3 =>
    .ok (advance (modeLength m) (cycles r.crossed) s3)

/-- RMBn and SMBn: read, write, no flag (R176, R177). -/
def modifyBit (f : Byte → Byte) (m : AddrMode) (cycles : Bool → Nat) (s : State) : Result :=
  toResult <|
    withAnswer (resolve m s) fun r s1 =>
    withAnswer (memRead r.ea s1) fun v s2 =>
    withState (memWrite r.ea (f v) s2) fun s3 =>
    .ok (advance (modeLength m) (cycles r.crossed) s3)

/-- The byte with bit `n` cleared (R176). -/
def clearBit (n : Nat) (v : Byte) : Byte := v &&& (bitMask n ^^^ 0xFF)

/-- The byte with bit `n` set (R177). -/
def raiseBit (n : Nat) (v : Byte) : Byte := v ||| bitMask n

/-- TSB $zz, opcode 0x04 (R174). -/
def execTsbZp (zp8 : Byte) (s : State) : Result := testAndWrite (fun a v => v ||| a) (.zp zp8) (cyclesOf (.tsbZp zp8)) s

/-- TSB $hhll, opcode 0x0C (R174). -/
def execTsbAbs (lo hi : Byte) (s : State) : Result := testAndWrite (fun a v => v ||| a) (.abs lo hi) (cyclesOf (.tsbAbs lo hi)) s

/-- TRB $zz, opcode 0x14 (R175). -/
def execTrbZp (zp8 : Byte) (s : State) : Result := testAndWrite (fun a v => v &&& (a ^^^ 0xFF)) (.zp zp8) (cyclesOf (.trbZp zp8)) s

/-- TRB $hhll, opcode 0x1C (R175). -/
def execTrbAbs (lo hi : Byte) (s : State) : Result := testAndWrite (fun a v => v &&& (a ^^^ 0xFF)) (.abs lo hi) (cyclesOf (.trbAbs lo hi)) s

/-- RMB0 $zz, opcode 0x07 (R176). -/
def execRmb0 (zp8 : Byte) (s : State) : Result := modifyBit (clearBit 0) (.zp zp8) (cyclesOf (.rmb0 zp8)) s

/-- RMB1 $zz, opcode 0x17 (R176). -/
def execRmb1 (zp8 : Byte) (s : State) : Result := modifyBit (clearBit 1) (.zp zp8) (cyclesOf (.rmb1 zp8)) s

/-- RMB2 $zz, opcode 0x27 (R176). -/
def execRmb2 (zp8 : Byte) (s : State) : Result := modifyBit (clearBit 2) (.zp zp8) (cyclesOf (.rmb2 zp8)) s

/-- RMB3 $zz, opcode 0x37 (R176). -/
def execRmb3 (zp8 : Byte) (s : State) : Result := modifyBit (clearBit 3) (.zp zp8) (cyclesOf (.rmb3 zp8)) s

/-- RMB4 $zz, opcode 0x47 (R176). -/
def execRmb4 (zp8 : Byte) (s : State) : Result := modifyBit (clearBit 4) (.zp zp8) (cyclesOf (.rmb4 zp8)) s

/-- RMB5 $zz, opcode 0x57 (R176). -/
def execRmb5 (zp8 : Byte) (s : State) : Result := modifyBit (clearBit 5) (.zp zp8) (cyclesOf (.rmb5 zp8)) s

/-- RMB6 $zz, opcode 0x67 (R176). -/
def execRmb6 (zp8 : Byte) (s : State) : Result := modifyBit (clearBit 6) (.zp zp8) (cyclesOf (.rmb6 zp8)) s

/-- RMB7 $zz, opcode 0x77 (R176). -/
def execRmb7 (zp8 : Byte) (s : State) : Result := modifyBit (clearBit 7) (.zp zp8) (cyclesOf (.rmb7 zp8)) s

/-- SMB0 $zz, opcode 0x87 (R177). -/
def execSmb0 (zp8 : Byte) (s : State) : Result := modifyBit (raiseBit 0) (.zp zp8) (cyclesOf (.smb0 zp8)) s

/-- SMB1 $zz, opcode 0x97 (R177). -/
def execSmb1 (zp8 : Byte) (s : State) : Result := modifyBit (raiseBit 1) (.zp zp8) (cyclesOf (.smb1 zp8)) s

/-- SMB2 $zz, opcode 0xA7 (R177). -/
def execSmb2 (zp8 : Byte) (s : State) : Result := modifyBit (raiseBit 2) (.zp zp8) (cyclesOf (.smb2 zp8)) s

/-- SMB3 $zz, opcode 0xB7 (R177). -/
def execSmb3 (zp8 : Byte) (s : State) : Result := modifyBit (raiseBit 3) (.zp zp8) (cyclesOf (.smb3 zp8)) s

/-- SMB4 $zz, opcode 0xC7 (R177). -/
def execSmb4 (zp8 : Byte) (s : State) : Result := modifyBit (raiseBit 4) (.zp zp8) (cyclesOf (.smb4 zp8)) s

/-- SMB5 $zz, opcode 0xD7 (R177). -/
def execSmb5 (zp8 : Byte) (s : State) : Result := modifyBit (raiseBit 5) (.zp zp8) (cyclesOf (.smb5 zp8)) s

/-- SMB6 $zz, opcode 0xE7 (R177). -/
def execSmb6 (zp8 : Byte) (s : State) : Result := modifyBit (raiseBit 6) (.zp zp8) (cyclesOf (.smb6 zp8)) s

/-- SMB7 $zz, opcode 0xF7 (R177). -/
def execSmb7 (zp8 : Byte) (s : State) : Result := modifyBit (raiseBit 7) (.zp zp8) (cyclesOf (.smb7 zp8)) s

end Sys2Proof.Machine
end

