-- ==== Sys2Proof/Machine/Branch.lean ====
section
/-! DEFINITION. BPL BMI BVC BVS BCC BCS BNE BEQ BRA BBRn BBSn (47_branch.md R250 to R262). -/

namespace Sys2Proof.Machine

/-- The end of a branch of `len` bytes: taken, to the target with the extra cycles; not taken, to the next instruction
(R250, R260, R111). CP still holds `cp0`. -/
def branchEnd (taken : Bool) (len : Nat) (target : Addr) (base : Nat) (s : State) : State :=
  if taken then jumpTo target (base + takenCycles (branchCrossed Config.branchPageBase s.cp len target)) s
  else advance len base s

/-- `Branch(cond)` of a relative branch (R250). -/
def branch (taken : Bool) (rel8 : Byte) (base : Nat) (s : State) : Result :=
  .next (branchEnd taken 2 (relTarget s.cp rel8) base s)

/-- BBRn and BBSn: one read of the zero-page byte, the branch taken when its bit `n` is `want` (R260, R261). -/
def bitBranch (n : Nat) (want : Bool) (zp8 rel8 : Byte) (base : Nat) (s : State) : Result :=
  toResult <|
    withAnswer (memRead (zext16 zp8) s) fun v s1 =>
    .ok (branchEnd (v.getLsbD n == want) 3 (zprelTarget s1.cp rel8) base s1)

/-- BPL $hhll (target), opcode 0x10 (R251). -/
def execBpl (rel8 : Byte) (s : State) : Result := branch (!s.p.n) rel8 (Instr.baseCycles (.bpl rel8)) s

/-- BMI $hhll (target), opcode 0x30 (R252). -/
def execBmi (rel8 : Byte) (s : State) : Result := branch s.p.n rel8 (Instr.baseCycles (.bmi rel8)) s

/-- BVC $hhll (target), opcode 0x50 (R253). -/
def execBvc (rel8 : Byte) (s : State) : Result := branch (!s.p.v) rel8 (Instr.baseCycles (.bvc rel8)) s

/-- BVS $hhll (target), opcode 0x70 (R254). -/
def execBvs (rel8 : Byte) (s : State) : Result := branch s.p.v rel8 (Instr.baseCycles (.bvs rel8)) s

/-- BCC $hhll (target), opcode 0x90 (R255). -/
def execBcc (rel8 : Byte) (s : State) : Result := branch (!s.p.c) rel8 (Instr.baseCycles (.bcc rel8)) s

/-- BCS $hhll (target), opcode 0xB0 (R256). -/
def execBcs (rel8 : Byte) (s : State) : Result := branch s.p.c rel8 (Instr.baseCycles (.bcs rel8)) s

/-- BNE $hhll (target), opcode 0xD0 (R257). -/
def execBne (rel8 : Byte) (s : State) : Result := branch (!s.p.z) rel8 (Instr.baseCycles (.bne rel8)) s

/-- BEQ $hhll (target), opcode 0xF0 (R258). -/
def execBeq (rel8 : Byte) (s : State) : Result := branch s.p.z rel8 (Instr.baseCycles (.beq rel8)) s

/-- BRA $hhll (target), opcode 0x80 (R259). -/
def execBra (rel8 : Byte) (s : State) : Result := branch true rel8 (Instr.baseCycles (.bra rel8)) s

/-- BBR0 $zz,$hhll (target), opcode 0x0F (R260). -/
def execBbr0 (zp8 rel8 : Byte) (s : State) : Result := bitBranch 0 false zp8 rel8 (Instr.baseCycles (.bbr0 zp8 rel8)) s

/-- BBR1 $zz,$hhll (target), opcode 0x1F (R260). -/
def execBbr1 (zp8 rel8 : Byte) (s : State) : Result := bitBranch 1 false zp8 rel8 (Instr.baseCycles (.bbr1 zp8 rel8)) s

/-- BBR2 $zz,$hhll (target), opcode 0x2F (R260). -/
def execBbr2 (zp8 rel8 : Byte) (s : State) : Result := bitBranch 2 false zp8 rel8 (Instr.baseCycles (.bbr2 zp8 rel8)) s

/-- BBR3 $zz,$hhll (target), opcode 0x3F (R260). -/
def execBbr3 (zp8 rel8 : Byte) (s : State) : Result := bitBranch 3 false zp8 rel8 (Instr.baseCycles (.bbr3 zp8 rel8)) s

/-- BBR4 $zz,$hhll (target), opcode 0x4F (R260). -/
def execBbr4 (zp8 rel8 : Byte) (s : State) : Result := bitBranch 4 false zp8 rel8 (Instr.baseCycles (.bbr4 zp8 rel8)) s

/-- BBR5 $zz,$hhll (target), opcode 0x5F (R260). -/
def execBbr5 (zp8 rel8 : Byte) (s : State) : Result := bitBranch 5 false zp8 rel8 (Instr.baseCycles (.bbr5 zp8 rel8)) s

/-- BBR6 $zz,$hhll (target), opcode 0x6F (R260). -/
def execBbr6 (zp8 rel8 : Byte) (s : State) : Result := bitBranch 6 false zp8 rel8 (Instr.baseCycles (.bbr6 zp8 rel8)) s

/-- BBR7 $zz,$hhll (target), opcode 0x7F (R260). -/
def execBbr7 (zp8 rel8 : Byte) (s : State) : Result := bitBranch 7 false zp8 rel8 (Instr.baseCycles (.bbr7 zp8 rel8)) s

/-- BBS0 $zz,$hhll (target), opcode 0x8F (R261). -/
def execBbs0 (zp8 rel8 : Byte) (s : State) : Result := bitBranch 0 true zp8 rel8 (Instr.baseCycles (.bbs0 zp8 rel8)) s

/-- BBS1 $zz,$hhll (target), opcode 0x9F (R261). -/
def execBbs1 (zp8 rel8 : Byte) (s : State) : Result := bitBranch 1 true zp8 rel8 (Instr.baseCycles (.bbs1 zp8 rel8)) s

/-- BBS2 $zz,$hhll (target), opcode 0xAF (R261). -/
def execBbs2 (zp8 rel8 : Byte) (s : State) : Result := bitBranch 2 true zp8 rel8 (Instr.baseCycles (.bbs2 zp8 rel8)) s

/-- BBS3 $zz,$hhll (target), opcode 0xBF (R261). -/
def execBbs3 (zp8 rel8 : Byte) (s : State) : Result := bitBranch 3 true zp8 rel8 (Instr.baseCycles (.bbs3 zp8 rel8)) s

/-- BBS4 $zz,$hhll (target), opcode 0xCF (R261). -/
def execBbs4 (zp8 rel8 : Byte) (s : State) : Result := bitBranch 4 true zp8 rel8 (Instr.baseCycles (.bbs4 zp8 rel8)) s

/-- BBS5 $zz,$hhll (target), opcode 0xDF (R261). -/
def execBbs5 (zp8 rel8 : Byte) (s : State) : Result := bitBranch 5 true zp8 rel8 (Instr.baseCycles (.bbs5 zp8 rel8)) s

/-- BBS6 $zz,$hhll (target), opcode 0xEF (R261). -/
def execBbs6 (zp8 rel8 : Byte) (s : State) : Result := bitBranch 6 true zp8 rel8 (Instr.baseCycles (.bbs6 zp8 rel8)) s

/-- BBS7 $zz,$hhll (target), opcode 0xFF (R261). -/
def execBbs7 (zp8 rel8 : Byte) (s : State) : Result := bitBranch 7 true zp8 rel8 (Instr.baseCycles (.bbs7 zp8 rel8)) s

end Sys2Proof.Machine
end

