-- ==== Sys2Proof/Machine/Compare.lean ====
section
/-! DEFINITION. CMP CPX CPY (46_compare.md R240 to R243). -/

namespace Sys2Proof.Machine

/-- The three compares: flags only (R243). -/
def compareReg (r : Reg) (src : Source) (cycles : Bool → Nat) (s : State) : Result :=
  toResult <|
    withAnswer (readSource src s) fun o s1 =>
    .ok (advance src.length (cycles o.crossed) (setStatus (Status.compare (s1.reg r) o.value s1.p) s1))

/-- CMP ($zz,X), opcode 0xC1 (R240). -/
def execCmpIzx (zp8 : Byte) (s : State) : Result := compareReg .a (.mem (.izx zp8)) (cyclesOf (.cmpIzx zp8)) s

/-- CMP $zz, opcode 0xC5 (R240). -/
def execCmpZp (zp8 : Byte) (s : State) : Result := compareReg .a (.mem (.zp zp8)) (cyclesOf (.cmpZp zp8)) s

/-- CMP #$nn, opcode 0xC9 (R240). -/
def execCmpImm (imm8 : Byte) (s : State) : Result := compareReg .a (.imm imm8) (cyclesOf (.cmpImm imm8)) s

/-- CMP $hhll, opcode 0xCD (R240). -/
def execCmpAbs (lo hi : Byte) (s : State) : Result := compareReg .a (.mem (.abs lo hi)) (cyclesOf (.cmpAbs lo hi)) s

/-- CMP ($zz),Y, opcode 0xD1 (R240). -/
def execCmpIzy (zp8 : Byte) (s : State) : Result := compareReg .a (.mem (.izy zp8)) (cyclesOf (.cmpIzy zp8)) s

/-- CMP ($zz), opcode 0xD2 (R240). -/
def execCmpIzp (zp8 : Byte) (s : State) : Result := compareReg .a (.mem (.izp zp8)) (cyclesOf (.cmpIzp zp8)) s

/-- CMP $zz,X, opcode 0xD5 (R240). -/
def execCmpZpx (zp8 : Byte) (s : State) : Result := compareReg .a (.mem (.zpx zp8)) (cyclesOf (.cmpZpx zp8)) s

/-- CMP $hhll,Y, opcode 0xD9 (R240). -/
def execCmpAbsy (lo hi : Byte) (s : State) : Result := compareReg .a (.mem (.absy lo hi)) (cyclesOf (.cmpAbsy lo hi)) s

/-- CMP $hhll,X, opcode 0xDD (R240). -/
def execCmpAbsx (lo hi : Byte) (s : State) : Result := compareReg .a (.mem (.absx lo hi)) (cyclesOf (.cmpAbsx lo hi)) s

/-- CPX #$nn, opcode 0xE0 (R241). -/
def execCpxImm (imm8 : Byte) (s : State) : Result := compareReg .x (.imm imm8) (cyclesOf (.cpxImm imm8)) s

/-- CPX $zz, opcode 0xE4 (R241). -/
def execCpxZp (zp8 : Byte) (s : State) : Result := compareReg .x (.mem (.zp zp8)) (cyclesOf (.cpxZp zp8)) s

/-- CPX $hhll, opcode 0xEC (R241). -/
def execCpxAbs (lo hi : Byte) (s : State) : Result := compareReg .x (.mem (.abs lo hi)) (cyclesOf (.cpxAbs lo hi)) s

/-- CPY #$nn, opcode 0xC0 (R242). -/
def execCpyImm (imm8 : Byte) (s : State) : Result := compareReg .y (.imm imm8) (cyclesOf (.cpyImm imm8)) s

/-- CPY $zz, opcode 0xC4 (R242). -/
def execCpyZp (zp8 : Byte) (s : State) : Result := compareReg .y (.mem (.zp zp8)) (cyclesOf (.cpyZp zp8)) s

/-- CPY $hhll, opcode 0xCC (R242). -/
def execCpyAbs (lo hi : Byte) (s : State) : Result := compareReg .y (.mem (.abs lo hi)) (cyclesOf (.cpyAbs lo hi)) s

end Sys2Proof.Machine
end

