-- ==== Sys2Proof/Machine/FlagOps.lean ====
section
/-! DEFINITION. CLC SEC CLI SEI CLD SED CLV NOP (49_stack_flags_misc.md R309 to R316, R318). -/

namespace Sys2Proof.Machine

/-- The seven flag instructions: P replaced, nothing else (R318). -/
def writeStatus (p : Status) (base : Nat) (s : State) : Result := .next (advance 1 base (setStatus p s))

/-- NOP: only CP and the cycle count (R316). -/
def noOperation (len base : Nat) (s : State) : Result := .next (advance len base s)

/-- CLC, opcode 0x18 (R309). -/
def execClc (s : State) : Result := writeStatus { s.p with c := false } (Instr.baseCycles .clc) s

/-- SEC, opcode 0x38 (R310). -/
def execSec (s : State) : Result := writeStatus { s.p with c := true } (Instr.baseCycles .sec) s

/-- CLI, opcode 0x58 (R311). -/
def execCli (s : State) : Result := writeStatus { s.p with i := false } (Instr.baseCycles .cli) s

/-- SEI, opcode 0x78 (R312). -/
def execSei (s : State) : Result := writeStatus { s.p with i := true } (Instr.baseCycles .sei) s

/-- CLD, opcode 0xD8 (R313). -/
def execCld (s : State) : Result := writeStatus { s.p with d := false } (Instr.baseCycles .cld) s

/-- SED, opcode 0xF8 (R314). -/
def execSed (s : State) : Result := writeStatus { s.p with d := true } (Instr.baseCycles .sed) s

/-- CLV, opcode 0xB8 (R315). -/
def execClv (s : State) : Result := writeStatus { s.p with v := false } (Instr.baseCycles .clv) s

/-- NOP, opcode 0xEA (R316). -/
def execNop (s : State) : Result := noOperation 1 (Instr.baseCycles .nop) s

end Sys2Proof.Machine
end

