-- ==== Sys2Proof/Machine/IncDec.lean ====
section
/-! DEFINITION. INC DEC INX INY DEX DEY (45_incdec.md R220 to R226). -/

namespace Sys2Proof.Machine

/-- `(v + 1) mod 256` (R220). -/
def increment (v : Byte) : Byte := v + 1

/-- `(v - 1) mod 256` (R221). -/
def decrement (v : Byte) : Byte := v - 1

/-- A register stepped by one, N and Z from the result (R220 to R225). -/
def stepReg (r : Reg) (f : Byte → Byte) (base : Nat) (s : State) : Result :=
  .next (advance 1 base (setNZ (f (s.reg r)) (setReg r (f (s.reg r)) s)))

/-- A memory byte stepped by one: one read, one write, then N and Z (R220, R221). -/
def stepMem (f : Byte → Byte) (m : AddrMode) (cycles : Bool → Nat) (s : State) : Result :=
  toResult <|
    withAnswer (resolve m s) fun r s1 =>
    withAnswer (memRead r.ea s1) fun v s2 =>
    withState (memWrite r.ea (f v) s2) fun s3 =>
    .ok (advance (modeLength m) (cycles r.crossed) (setNZ (f v) s3))

/-- INC A, opcode 0x1A (R220). -/
def execIncAcc (s : State) : Result := stepReg .a increment (Instr.baseCycles .incAcc) s

/-- INC $zz, opcode 0xE6 (R220). -/
def execIncZp (zp8 : Byte) (s : State) : Result := stepMem increment (.zp zp8) (cyclesOf (.incZp zp8)) s

/-- INC $hhll, opcode 0xEE (R220). -/
def execIncAbs (lo hi : Byte) (s : State) : Result := stepMem increment (.abs lo hi) (cyclesOf (.incAbs lo hi)) s

/-- INC $zz,X, opcode 0xF6 (R220). -/
def execIncZpx (zp8 : Byte) (s : State) : Result := stepMem increment (.zpx zp8) (cyclesOf (.incZpx zp8)) s

/-- INC $hhll,X, opcode 0xFE (R220). -/
def execIncAbsx (lo hi : Byte) (s : State) : Result := stepMem increment (.absx lo hi) (cyclesOf (.incAbsx lo hi)) s

/-- DEC A, opcode 0x3A (R221). -/
def execDecAcc (s : State) : Result := stepReg .a decrement (Instr.baseCycles .decAcc) s

/-- DEC $zz, opcode 0xC6 (R221). -/
def execDecZp (zp8 : Byte) (s : State) : Result := stepMem decrement (.zp zp8) (cyclesOf (.decZp zp8)) s

/-- DEC $hhll, opcode 0xCE (R221). -/
def execDecAbs (lo hi : Byte) (s : State) : Result := stepMem decrement (.abs lo hi) (cyclesOf (.decAbs lo hi)) s

/-- DEC $zz,X, opcode 0xD6 (R221). -/
def execDecZpx (zp8 : Byte) (s : State) : Result := stepMem decrement (.zpx zp8) (cyclesOf (.decZpx zp8)) s

/-- DEC $hhll,X, opcode 0xDE (R221). -/
def execDecAbsx (lo hi : Byte) (s : State) : Result := stepMem decrement (.absx lo hi) (cyclesOf (.decAbsx lo hi)) s

/-- INX, opcode 0xE8 (R222). -/
def execInx (s : State) : Result := stepReg .x increment (Instr.baseCycles .inx) s

/-- INY, opcode 0xC8 (R223). -/
def execIny (s : State) : Result := stepReg .y increment (Instr.baseCycles .iny) s

/-- DEX, opcode 0xCA (R224). -/
def execDex (s : State) : Result := stepReg .x decrement (Instr.baseCycles .dex) s

/-- DEY, opcode 0x88 (R225). -/
def execDey (s : State) : Result := stepReg .y decrement (Instr.baseCycles .dey) s

end Sys2Proof.Machine
end

