-- ==== Sys2Proof/Machine/Jump.lean ====
section
/-! DEFINITION. JMP JSR RTS (48_jump_subroutine.md R280 to R282, R285). -/

namespace Sys2Proof.Machine

/-- JMP: CP from the effective address, no page cycle in any form (R280). -/
def jump (m : AddrMode) (base : Nat) (s : State) : Result :=
  toResult <|
    withAnswer (resolve m s) fun r s1 =>
    .ok (jumpTo r.ea base s1)

/-- JSR: push `cp0 + 2` high byte first, then CP from the operand (R281). -/
def callSubroutine (target : Addr) (base : Nat) (s : State) : Result :=
  toResult <|
    withState (pushWord (offsetAddr s.cp 2) s) fun s1 =>
    .ok (jumpTo target base s1)

/-- RTS: pull low then high, CP is the pulled value plus one (R282). -/
def returnFromSubroutine (base : Nat) (s : State) : Result :=
  toResult <|
    withAnswer (pullWord s) fun ret s1 =>
    .ok (jumpTo (ret + 1) base s1)

/-- JMP $hhll, opcode 0x4C (R280). -/
def execJmpAbs (lo hi : Byte) (s : State) : Result := jump (.abs lo hi) (Instr.baseCycles (.jmpAbs lo hi)) s

/-- JMP ($hhll), opcode 0x6C (R280). -/
def execJmpInd (lo hi : Byte) (s : State) : Result := jump (.ind lo hi) (Instr.baseCycles (.jmpInd lo hi)) s

/-- JMP ($hhll,X), opcode 0x7C (R280). -/
def execJmpIax (lo hi : Byte) (s : State) : Result := jump (.iax lo hi) (Instr.baseCycles (.jmpIax lo hi)) s

/-- JSR $hhll, opcode 0x20 (R281). -/
def execJsr (lo hi : Byte) (s : State) : Result := callSubroutine (word lo hi) (Instr.baseCycles (.jsr lo hi)) s

/-- RTS, opcode 0x60 (R282). -/
def execRts (s : State) : Result := returnFromSubroutine (Instr.baseCycles .rts) s

end Sys2Proof.Machine
end

