-- ==== Sys2Proof/Machine/LoadStore.lean ====
section
/-! DEFINITION. LDA LDX LDY STA STX STY STZ (41_load_store_transfer.md R120 to R127). -/

namespace Sys2Proof.Machine

/-- The three loads: the operand to the register, N and Z from it (R120). -/
def load (r : Reg) (src : Source) (cycles : Bool → Nat) (s : State) : Result :=
  toResult <|
    withAnswer (readSource src s) fun o s1 =>
    .ok (advance src.length (cycles o.crossed) (setNZ o.value (setReg r o.value s1)))

/-- The four stores: one write, no flag (R124, 40_addressing_modes.md R108). -/
def store (v : Byte) (m : AddrMode) (cycles : Bool → Nat) (s : State) : Result :=
  toResult <|
    withAnswer (resolve m s) fun r s1 =>
    withState (memWrite r.ea v s1) fun s2 =>
    .ok (advance (modeLength m) (cycles r.crossed) s2)

/-- LDA ($zz,X), opcode 0xA1 (R121). -/
def execLdaIzx (zp8 : Byte) (s : State) : Result := load .a (.mem (.izx zp8)) (cyclesOf (.ldaIzx zp8)) s

/-- LDA $zz, opcode 0xA5 (R121). -/
def execLdaZp (zp8 : Byte) (s : State) : Result := load .a (.mem (.zp zp8)) (cyclesOf (.ldaZp zp8)) s

/-- LDA #$nn, opcode 0xA9 (R121). -/
def execLdaImm (imm8 : Byte) (s : State) : Result := load .a (.imm imm8) (cyclesOf (.ldaImm imm8)) s

/-- LDA $hhll, opcode 0xAD (R121). -/
def execLdaAbs (lo hi : Byte) (s : State) : Result := load .a (.mem (.abs lo hi)) (cyclesOf (.ldaAbs lo hi)) s

/-- LDA ($zz),Y, opcode 0xB1 (R121). -/
def execLdaIzy (zp8 : Byte) (s : State) : Result := load .a (.mem (.izy zp8)) (cyclesOf (.ldaIzy zp8)) s

/-- LDA ($zz), opcode 0xB2 (R121). -/
def execLdaIzp (zp8 : Byte) (s : State) : Result := load .a (.mem (.izp zp8)) (cyclesOf (.ldaIzp zp8)) s

/-- LDA $zz,X, opcode 0xB5 (R121). -/
def execLdaZpx (zp8 : Byte) (s : State) : Result := load .a (.mem (.zpx zp8)) (cyclesOf (.ldaZpx zp8)) s

/-- LDA $hhll,Y, opcode 0xB9 (R121). -/
def execLdaAbsy (lo hi : Byte) (s : State) : Result := load .a (.mem (.absy lo hi)) (cyclesOf (.ldaAbsy lo hi)) s

/-- LDA $hhll,X, opcode 0xBD (R121). -/
def execLdaAbsx (lo hi : Byte) (s : State) : Result := load .a (.mem (.absx lo hi)) (cyclesOf (.ldaAbsx lo hi)) s

/-- LDX #$nn, opcode 0xA2 (R122). -/
def execLdxImm (imm8 : Byte) (s : State) : Result := load .x (.imm imm8) (cyclesOf (.ldxImm imm8)) s

/-- LDX $zz, opcode 0xA6 (R122). -/
def execLdxZp (zp8 : Byte) (s : State) : Result := load .x (.mem (.zp zp8)) (cyclesOf (.ldxZp zp8)) s

/-- LDX $hhll, opcode 0xAE (R122). -/
def execLdxAbs (lo hi : Byte) (s : State) : Result := load .x (.mem (.abs lo hi)) (cyclesOf (.ldxAbs lo hi)) s

/-- LDX $zz,Y, opcode 0xB6 (R122). -/
def execLdxZpy (zp8 : Byte) (s : State) : Result := load .x (.mem (.zpy zp8)) (cyclesOf (.ldxZpy zp8)) s

/-- LDX $hhll,Y, opcode 0xBE (R122). -/
def execLdxAbsy (lo hi : Byte) (s : State) : Result := load .x (.mem (.absy lo hi)) (cyclesOf (.ldxAbsy lo hi)) s

/-- LDY #$nn, opcode 0xA0 (R123). -/
def execLdyImm (imm8 : Byte) (s : State) : Result := load .y (.imm imm8) (cyclesOf (.ldyImm imm8)) s

/-- LDY $zz, opcode 0xA4 (R123). -/
def execLdyZp (zp8 : Byte) (s : State) : Result := load .y (.mem (.zp zp8)) (cyclesOf (.ldyZp zp8)) s

/-- LDY $hhll, opcode 0xAC (R123). -/
def execLdyAbs (lo hi : Byte) (s : State) : Result := load .y (.mem (.abs lo hi)) (cyclesOf (.ldyAbs lo hi)) s

/-- LDY $zz,X, opcode 0xB4 (R123). -/
def execLdyZpx (zp8 : Byte) (s : State) : Result := load .y (.mem (.zpx zp8)) (cyclesOf (.ldyZpx zp8)) s

/-- LDY $hhll,X, opcode 0xBC (R123). -/
def execLdyAbsx (lo hi : Byte) (s : State) : Result := load .y (.mem (.absx lo hi)) (cyclesOf (.ldyAbsx lo hi)) s

/-- STA ($zz,X), opcode 0x81 (R124). -/
def execStaIzx (zp8 : Byte) (s : State) : Result := store s.a (.izx zp8) (cyclesOf (.staIzx zp8)) s

/-- STA $zz, opcode 0x85 (R124). -/
def execStaZp (zp8 : Byte) (s : State) : Result := store s.a (.zp zp8) (cyclesOf (.staZp zp8)) s

/-- STA $hhll, opcode 0x8D (R124). -/
def execStaAbs (lo hi : Byte) (s : State) : Result := store s.a (.abs lo hi) (cyclesOf (.staAbs lo hi)) s

/-- STA ($zz),Y, opcode 0x91 (R124). -/
def execStaIzy (zp8 : Byte) (s : State) : Result := store s.a (.izy zp8) (cyclesOf (.staIzy zp8)) s

/-- STA ($zz), opcode 0x92 (R124). -/
def execStaIzp (zp8 : Byte) (s : State) : Result := store s.a (.izp zp8) (cyclesOf (.staIzp zp8)) s

/-- STA $zz,X, opcode 0x95 (R124). -/
def execStaZpx (zp8 : Byte) (s : State) : Result := store s.a (.zpx zp8) (cyclesOf (.staZpx zp8)) s

/-- STA $hhll,Y, opcode 0x99 (R124). -/
def execStaAbsy (lo hi : Byte) (s : State) : Result := store s.a (.absy lo hi) (cyclesOf (.staAbsy lo hi)) s

/-- STA $hhll,X, opcode 0x9D (R124). -/
def execStaAbsx (lo hi : Byte) (s : State) : Result := store s.a (.absx lo hi) (cyclesOf (.staAbsx lo hi)) s

/-- STX $zz, opcode 0x86 (R125). -/
def execStxZp (zp8 : Byte) (s : State) : Result := store s.x (.zp zp8) (cyclesOf (.stxZp zp8)) s

/-- STX $hhll, opcode 0x8E (R125). -/
def execStxAbs (lo hi : Byte) (s : State) : Result := store s.x (.abs lo hi) (cyclesOf (.stxAbs lo hi)) s

/-- STX $zz,Y, opcode 0x96 (R125). -/
def execStxZpy (zp8 : Byte) (s : State) : Result := store s.x (.zpy zp8) (cyclesOf (.stxZpy zp8)) s

/-- STY $zz, opcode 0x84 (R126). -/
def execStyZp (zp8 : Byte) (s : State) : Result := store s.y (.zp zp8) (cyclesOf (.styZp zp8)) s

/-- STY $hhll, opcode 0x8C (R126). -/
def execStyAbs (lo hi : Byte) (s : State) : Result := store s.y (.abs lo hi) (cyclesOf (.styAbs lo hi)) s

/-- STY $zz,X, opcode 0x94 (R126). -/
def execStyZpx (zp8 : Byte) (s : State) : Result := store s.y (.zpx zp8) (cyclesOf (.styZpx zp8)) s

/-- STZ $zz, opcode 0x64 (R127). -/
def execStzZp (zp8 : Byte) (s : State) : Result := store 0x00 (.zp zp8) (cyclesOf (.stzZp zp8)) s

/-- STZ $zz,X, opcode 0x74 (R127). -/
def execStzZpx (zp8 : Byte) (s : State) : Result := store 0x00 (.zpx zp8) (cyclesOf (.stzZpx zp8)) s

/-- STZ $hhll, opcode 0x9C (R127). -/
def execStzAbs (lo hi : Byte) (s : State) : Result := store 0x00 (.abs lo hi) (cyclesOf (.stzAbs lo hi)) s

/-- STZ $hhll,X, opcode 0x9E (R127). -/
def execStzAbsx (lo hi : Byte) (s : State) : Result := store 0x00 (.absx lo hi) (cyclesOf (.stzAbsx lo hi)) s

end Sys2Proof.Machine
end

