-- ==== Sys2Proof/Machine/Logic.lean ====
section
/-! DEFINITION. AND ORA EOR BIT (43_logic_bit.md R170 to R173). -/

namespace Sys2Proof.Machine

/-- The common shape of AND, ORA and EOR: A from A and the operand, N and Z from A (R170). -/
def logic (f : Byte → Byte → Byte) (src : Source) (cycles : Bool → Nat) (s : State) : Result :=
  toResult <|
    withAnswer (readSource src s) fun o s1 =>
    .ok (advance src.length (cycles o.crossed) (setNZ (f s1.a o.value) (setReg .a (f s1.a o.value) s1)))

/-- The operand is the immediate form. -/
def Source.isImmediate : Source → Bool
  | .imm _ => true
  | .mem _ => false

/-- BIT: flags only, A unchanged, as `BIT_FLAGS` says (R173). -/
def bitTest (src : Source) (cycles : Bool → Nat) (s : State) : Result :=
  toResult <|
    withAnswer (readSource src s) fun o s1 =>
    .ok (advance src.length (cycles o.crossed)
      (setStatus (Status.bitTest Config.bitFlags src.isImmediate s1.a o.value s1.p) s1))

/-- AND ($zz,X), opcode 0x21 (R170). -/
def execAndIzx (zp8 : Byte) (s : State) : Result := logic (fun a m => a &&& m) (.mem (.izx zp8)) (cyclesOf (.andIzx zp8)) s

/-- AND $zz, opcode 0x25 (R170). -/
def execAndZp (zp8 : Byte) (s : State) : Result := logic (fun a m => a &&& m) (.mem (.zp zp8)) (cyclesOf (.andZp zp8)) s

/-- AND #$nn, opcode 0x29 (R170). -/
def execAndImm (imm8 : Byte) (s : State) : Result := logic (fun a m => a &&& m) (.imm imm8) (cyclesOf (.andImm imm8)) s

/-- AND $hhll, opcode 0x2D (R170). -/
def execAndAbs (lo hi : Byte) (s : State) : Result := logic (fun a m => a &&& m) (.mem (.abs lo hi)) (cyclesOf (.andAbs lo hi)) s

/-- AND ($zz),Y, opcode 0x31 (R170). -/
def execAndIzy (zp8 : Byte) (s : State) : Result := logic (fun a m => a &&& m) (.mem (.izy zp8)) (cyclesOf (.andIzy zp8)) s

/-- AND ($zz), opcode 0x32 (R170). -/
def execAndIzp (zp8 : Byte) (s : State) : Result := logic (fun a m => a &&& m) (.mem (.izp zp8)) (cyclesOf (.andIzp zp8)) s

/-- AND $zz,X, opcode 0x35 (R170). -/
def execAndZpx (zp8 : Byte) (s : State) : Result := logic (fun a m => a &&& m) (.mem (.zpx zp8)) (cyclesOf (.andZpx zp8)) s

/-- AND $hhll,Y, opcode 0x39 (R170). -/
def execAndAbsy (lo hi : Byte) (s : State) : Result := logic (fun a m => a &&& m) (.mem (.absy lo hi)) (cyclesOf (.andAbsy lo hi)) s

/-- AND $hhll,X, opcode 0x3D (R170). -/
def execAndAbsx (lo hi : Byte) (s : State) : Result := logic (fun a m => a &&& m) (.mem (.absx lo hi)) (cyclesOf (.andAbsx lo hi)) s

/-- ORA ($zz,X), opcode 0x01 (R171). -/
def execOraIzx (zp8 : Byte) (s : State) : Result := logic (fun a m => a ||| m) (.mem (.izx zp8)) (cyclesOf (.oraIzx zp8)) s

/-- ORA $zz, opcode 0x05 (R171). -/
def execOraZp (zp8 : Byte) (s : State) : Result := logic (fun a m => a ||| m) (.mem (.zp zp8)) (cyclesOf (.oraZp zp8)) s

/-- ORA #$nn, opcode 0x09 (R171). -/
def execOraImm (imm8 : Byte) (s : State) : Result := logic (fun a m => a ||| m) (.imm imm8) (cyclesOf (.oraImm imm8)) s

/-- ORA $hhll, opcode 0x0D (R171). -/
def execOraAbs (lo hi : Byte) (s : State) : Result := logic (fun a m => a ||| m) (.mem (.abs lo hi)) (cyclesOf (.oraAbs lo hi)) s

/-- ORA ($zz),Y, opcode 0x11 (R171). -/
def execOraIzy (zp8 : Byte) (s : State) : Result := logic (fun a m => a ||| m) (.mem (.izy zp8)) (cyclesOf (.oraIzy zp8)) s

/-- ORA ($zz), opcode 0x12 (R171). -/
def execOraIzp (zp8 : Byte) (s : State) : Result := logic (fun a m => a ||| m) (.mem (.izp zp8)) (cyclesOf (.oraIzp zp8)) s

/-- ORA $zz,X, opcode 0x15 (R171). -/
def execOraZpx (zp8 : Byte) (s : State) : Result := logic (fun a m => a ||| m) (.mem (.zpx zp8)) (cyclesOf (.oraZpx zp8)) s

/-- ORA $hhll,Y, opcode 0x19 (R171). -/
def execOraAbsy (lo hi : Byte) (s : State) : Result := logic (fun a m => a ||| m) (.mem (.absy lo hi)) (cyclesOf (.oraAbsy lo hi)) s

/-- ORA $hhll,X, opcode 0x1D (R171). -/
def execOraAbsx (lo hi : Byte) (s : State) : Result := logic (fun a m => a ||| m) (.mem (.absx lo hi)) (cyclesOf (.oraAbsx lo hi)) s

/-- EOR ($zz,X), opcode 0x41 (R172). -/
def execEorIzx (zp8 : Byte) (s : State) : Result := logic (fun a m => a ^^^ m) (.mem (.izx zp8)) (cyclesOf (.eorIzx zp8)) s

/-- EOR $zz, opcode 0x45 (R172). -/
def execEorZp (zp8 : Byte) (s : State) : Result := logic (fun a m => a ^^^ m) (.mem (.zp zp8)) (cyclesOf (.eorZp zp8)) s

/-- EOR #$nn, opcode 0x49 (R172). -/
def execEorImm (imm8 : Byte) (s : State) : Result := logic (fun a m => a ^^^ m) (.imm imm8) (cyclesOf (.eorImm imm8)) s

/-- EOR $hhll, opcode 0x4D (R172). -/
def execEorAbs (lo hi : Byte) (s : State) : Result := logic (fun a m => a ^^^ m) (.mem (.abs lo hi)) (cyclesOf (.eorAbs lo hi)) s

/-- EOR ($zz),Y, opcode 0x51 (R172). -/
def execEorIzy (zp8 : Byte) (s : State) : Result := logic (fun a m => a ^^^ m) (.mem (.izy zp8)) (cyclesOf (.eorIzy zp8)) s

/-- EOR ($zz), opcode 0x52 (R172). -/
def execEorIzp (zp8 : Byte) (s : State) : Result := logic (fun a m => a ^^^ m) (.mem (.izp zp8)) (cyclesOf (.eorIzp zp8)) s

/-- EOR $zz,X, opcode 0x55 (R172). -/
def execEorZpx (zp8 : Byte) (s : State) : Result := logic (fun a m => a ^^^ m) (.mem (.zpx zp8)) (cyclesOf (.eorZpx zp8)) s

/-- EOR $hhll,Y, opcode 0x59 (R172). -/
def execEorAbsy (lo hi : Byte) (s : State) : Result := logic (fun a m => a ^^^ m) (.mem (.absy lo hi)) (cyclesOf (.eorAbsy lo hi)) s

/-- EOR $hhll,X, opcode 0x5D (R172). -/
def execEorAbsx (lo hi : Byte) (s : State) : Result := logic (fun a m => a ^^^ m) (.mem (.absx lo hi)) (cyclesOf (.eorAbsx lo hi)) s

/-- BIT $zz, opcode 0x24 (R173). -/
def execBitZp (zp8 : Byte) (s : State) : Result := bitTest (.mem (.zp zp8)) (cyclesOf (.bitZp zp8)) s

/-- BIT $hhll, opcode 0x2C (R173). -/
def execBitAbs (lo hi : Byte) (s : State) : Result := bitTest (.mem (.abs lo hi)) (cyclesOf (.bitAbs lo hi)) s

/-- BIT $zz,X, opcode 0x34 (R173). -/
def execBitZpx (zp8 : Byte) (s : State) : Result := bitTest (.mem (.zpx zp8)) (cyclesOf (.bitZpx zp8)) s

/-- BIT $hhll,X, opcode 0x3C (R173). -/
def execBitAbsx (lo hi : Byte) (s : State) : Result := bitTest (.mem (.absx lo hi)) (cyclesOf (.bitAbsx lo hi)) s

/-- BIT #$nn, opcode 0x89 (R173). -/
def execBitImm (imm8 : Byte) (s : State) : Result := bitTest (.imm imm8) (cyclesOf (.bitImm imm8)) s

end Sys2Proof.Machine
end

