-- ==== Sys2Proof/Machine/Shift.lean ====
section
/-! DEFINITION. ASL LSR ROL ROR (44_shift_rotate.md R200 to R204). -/

namespace Sys2Proof.Machine

/-- The accumulator form of a shift or rotate; `f` takes the carry from before the instruction and the byte (R204). -/
def shiftAcc (f : Bool → Byte → ShiftResult) (base : Nat) (s : State) : Result :=
  .next (advance 1 base (setStatus (Status.setShift (f s.p.c s.a) s.p) (setReg .a (f s.p.c s.a).result s)))

/-- A memory form: one read, one write, then the flags (R204). -/
def shiftMem (f : Bool → Byte → ShiftResult) (m : AddrMode) (cycles : Bool → Nat) (s : State) : Result :=
  toResult <|
    withAnswer (resolve m s) fun r s1 =>
    withAnswer (memRead r.ea s1) fun v s2 =>
    withState (memWrite r.ea (f s2.p.c v).result s2) fun s3 =>
    .ok (advance (modeLength m) (cycles r.crossed) (setStatus (Status.setShift (f s2.p.c v) s3.p) s3))

/-- ASL $zz, opcode 0x06 (R200). -/
def execAslZp (zp8 : Byte) (s : State) : Result := shiftMem aslByte (.zp zp8) (cyclesOf (.aslZp zp8)) s

/-- ASL A, opcode 0x0A (R200). -/
def execAslAcc (s : State) : Result := shiftAcc aslByte (Instr.baseCycles .aslAcc) s

/-- ASL $hhll, opcode 0x0E (R200). -/
def execAslAbs (lo hi : Byte) (s : State) : Result := shiftMem aslByte (.abs lo hi) (cyclesOf (.aslAbs lo hi)) s

/-- ASL $zz,X, opcode 0x16 (R200). -/
def execAslZpx (zp8 : Byte) (s : State) : Result := shiftMem aslByte (.zpx zp8) (cyclesOf (.aslZpx zp8)) s

/-- ASL $hhll,X, opcode 0x1E (R200). -/
def execAslAbsx (lo hi : Byte) (s : State) : Result := shiftMem aslByte (.absx lo hi) (cyclesOf (.aslAbsx lo hi)) s

/-- LSR $zz, opcode 0x46 (R201). -/
def execLsrZp (zp8 : Byte) (s : State) : Result := shiftMem lsrByte (.zp zp8) (cyclesOf (.lsrZp zp8)) s

/-- LSR A, opcode 0x4A (R201). -/
def execLsrAcc (s : State) : Result := shiftAcc lsrByte (Instr.baseCycles .lsrAcc) s

/-- LSR $hhll, opcode 0x4E (R201). -/
def execLsrAbs (lo hi : Byte) (s : State) : Result := shiftMem lsrByte (.abs lo hi) (cyclesOf (.lsrAbs lo hi)) s

/-- LSR $zz,X, opcode 0x56 (R201). -/
def execLsrZpx (zp8 : Byte) (s : State) : Result := shiftMem lsrByte (.zpx zp8) (cyclesOf (.lsrZpx zp8)) s

/-- LSR $hhll,X, opcode 0x5E (R201). -/
def execLsrAbsx (lo hi : Byte) (s : State) : Result := shiftMem lsrByte (.absx lo hi) (cyclesOf (.lsrAbsx lo hi)) s

/-- ROL $zz, opcode 0x26 (R202). -/
def execRolZp (zp8 : Byte) (s : State) : Result := shiftMem rolByte (.zp zp8) (cyclesOf (.rolZp zp8)) s

/-- ROL A, opcode 0x2A (R202). -/
def execRolAcc (s : State) : Result := shiftAcc rolByte (Instr.baseCycles .rolAcc) s

/-- ROL $hhll, opcode 0x2E (R202). -/
def execRolAbs (lo hi : Byte) (s : State) : Result := shiftMem rolByte (.abs lo hi) (cyclesOf (.rolAbs lo hi)) s

/-- ROL $zz,X, opcode 0x36 (R202). -/
def execRolZpx (zp8 : Byte) (s : State) : Result := shiftMem rolByte (.zpx zp8) (cyclesOf (.rolZpx zp8)) s

/-- ROL $hhll,X, opcode 0x3E (R202). -/
def execRolAbsx (lo hi : Byte) (s : State) : Result := shiftMem rolByte (.absx lo hi) (cyclesOf (.rolAbsx lo hi)) s

/-- ROR $zz, opcode 0x66 (R203). -/
def execRorZp (zp8 : Byte) (s : State) : Result := shiftMem rorByte (.zp zp8) (cyclesOf (.rorZp zp8)) s

/-- ROR A, opcode 0x6A (R203). -/
def execRorAcc (s : State) : Result := shiftAcc rorByte (Instr.baseCycles .rorAcc) s

/-- ROR $hhll, opcode 0x6E (R203). -/
def execRorAbs (lo hi : Byte) (s : State) : Result := shiftMem rorByte (.abs lo hi) (cyclesOf (.rorAbs lo hi)) s

/-- ROR $zz,X, opcode 0x76 (R203). -/
def execRorZpx (zp8 : Byte) (s : State) : Result := shiftMem rorByte (.zpx zp8) (cyclesOf (.rorZpx zp8)) s

/-- ROR $hhll,X, opcode 0x7E (R203). -/
def execRorAbsx (lo hi : Byte) (s : State) : Result := shiftMem rorByte (.absx lo hi) (cyclesOf (.rorAbsx lo hi)) s

end Sys2Proof.Machine
end

