-- ==== Sys2Proof/Machine/Stack.lean ====
section
/-! DEFINITION. PHA PLA PHX PLX PHY PLY PHP PLP (49_stack_flags_misc.md R300 to R308). -/

namespace Sys2Proof.Machine

/-- A byte pushed; no flag changes (R301, R307). -/
def pushByte (v : Byte) (base : Nat) (s : State) : Result :=
  toResult <|
    withState (push v s) fun s1 =>
    .ok (advance 1 base s1)

/-- A register pulled, N and Z from the pulled value (R302). -/
def pullReg (r : Reg) (base : Nat) (s : State) : Result :=
  toResult <|
    withAnswer (pull s) fun v s1 =>
    .ok (advance 1 base (setNZ v (setReg r v s1)))

/-- P pulled, as `PULL_B` says (R308). -/
def pullStatus (base : Nat) (s : State) : Result :=
  toResult <|
    withAnswer (pull s) fun w s1 =>
    .ok (advance 1 base (setStatus (Status.pulled Config.pullB w s1.p) s1))

/-- PHA, opcode 0x48 (R301). -/
def execPha (s : State) : Result := pushByte s.a (Instr.baseCycles .pha) s

/-- PLA, opcode 0x68 (R302). -/
def execPla (s : State) : Result := pullReg .a (Instr.baseCycles .pla) s

/-- PHX, opcode 0xDA (R303). -/
def execPhx (s : State) : Result := pushByte s.x (Instr.baseCycles .phx) s

/-- PLX, opcode 0xFA (R304). -/
def execPlx (s : State) : Result := pullReg .x (Instr.baseCycles .plx) s

/-- PHY, opcode 0x5A (R305). -/
def execPhy (s : State) : Result := pushByte s.y (Instr.baseCycles .phy) s

/-- PLY, opcode 0x7A (R306). -/
def execPly (s : State) : Result := pullReg .y (Instr.baseCycles .ply) s

/-- PHP, opcode 0x08 (R307). -/
def execPhp (s : State) : Result := pushByte s.p.pushed (Instr.baseCycles .php) s

/-- PLP, opcode 0x28 (R308). -/
def execPlp (s : State) : Result := pullStatus (Instr.baseCycles .plp) s

end Sys2Proof.Machine
end

