-- ==== Sys2Proof/Machine/System.lean ====
section
/-! DEFINITION. BRK RTI STP (48_jump_subroutine.md R283, R284, 49_stack_flags_misc.md R317), and the rows that are no
instruction: the 44 unassigned opcodes (30_encoding.md R70) and 0xCB (R71). -/

namespace Sys2Proof.Machine

/-- BRK: the trap's entry, then the cycles (R284). -/
def breakTrap (base : Nat) (s : State) : Result :=
  toResult <|
    withState (takeBreak s) fun s1 =>
    .ok (addCycles base s1)

/-- RTI: the return, then the cycles (R283). -/
def returnTrap (base : Nat) (s : State) : Result :=
  toResult <|
    withState (returnFromBreak s) fun s1 =>
    .ok (addCycles base s1)

/-- STP: CP stays on the STP byte, the cycles are added, nothing else changes; the engine keeps no stopped latch (R317). -/
def stop (base : Nat) (s : State) : Result := .next (addCycles base (setCp s.cp s))

/-- An unassigned opcode: a no-operation if it is in `NOP_SLOTS`, else `UnknownOpcode` (R70, R352). -/
def unassigned (op : Byte) (s : State) : Result :=
  match nopSlot Config.nopSlots op with
  | some slot => noOperation slot.length slot.cycles s
  | none => .fault (.unknownOpcode op s.cp)

/-- Opcode 0xCB, as `WAI_POLICY` says (R71). -/
def waitForInterrupt (s : State) : Result :=
  match Config.waiPolicy with
  | .refuse => .fault (.unknownOpcode 0xCB s.cp)

/-- BRK, opcode 0x00 (R284). -/
def execBrk (s : State) : Result := breakTrap (Instr.baseCycles .brk) s

/-- RTI, opcode 0x40 (R283). -/
def execRti (s : State) : Result := returnTrap (Instr.baseCycles .rti) s

/-- STP, opcode 0xDB (R317). -/
def execStp (s : State) : Result := stop (Instr.baseCycles .stp) s

/-- No instruction, opcode 0x02 (R70). -/
def execUndefined02 (s : State) : Result := unassigned 0x02 s

/-- No instruction, opcode 0x03 (R70). -/
def execUndefined03 (s : State) : Result := unassigned 0x03 s

/-- No instruction, opcode 0x0B (R70). -/
def execUndefined0B (s : State) : Result := unassigned 0x0B s

/-- No instruction, opcode 0x13 (R70). -/
def execUndefined13 (s : State) : Result := unassigned 0x13 s

/-- No instruction, opcode 0x1B (R70). -/
def execUndefined1B (s : State) : Result := unassigned 0x1B s

/-- No instruction, opcode 0x22 (R70). -/
def execUndefined22 (s : State) : Result := unassigned 0x22 s

/-- No instruction, opcode 0x23 (R70). -/
def execUndefined23 (s : State) : Result := unassigned 0x23 s

/-- No instruction, opcode 0x2B (R70). -/
def execUndefined2B (s : State) : Result := unassigned 0x2B s

/-- No instruction, opcode 0x33 (R70). -/
def execUndefined33 (s : State) : Result := unassigned 0x33 s

/-- No instruction, opcode 0x3B (R70). -/
def execUndefined3B (s : State) : Result := unassigned 0x3B s

/-- No instruction, opcode 0x42 (R70). -/
def execUndefined42 (s : State) : Result := unassigned 0x42 s

/-- No instruction, opcode 0x43 (R70). -/
def execUndefined43 (s : State) : Result := unassigned 0x43 s

/-- No instruction, opcode 0x44 (R70). -/
def execUndefined44 (s : State) : Result := unassigned 0x44 s

/-- No instruction, opcode 0x4B (R70). -/
def execUndefined4B (s : State) : Result := unassigned 0x4B s

/-- No instruction, opcode 0x53 (R70). -/
def execUndefined53 (s : State) : Result := unassigned 0x53 s

/-- No instruction, opcode 0x54 (R70). -/
def execUndefined54 (s : State) : Result := unassigned 0x54 s

/-- No instruction, opcode 0x5B (R70). -/
def execUndefined5B (s : State) : Result := unassigned 0x5B s

/-- No instruction, opcode 0x5C (R70). -/
def execUndefined5C (s : State) : Result := unassigned 0x5C s

/-- No instruction, opcode 0x62 (R70). -/
def execUndefined62 (s : State) : Result := unassigned 0x62 s

/-- No instruction, opcode 0x63 (R70). -/
def execUndefined63 (s : State) : Result := unassigned 0x63 s

/-- No instruction, opcode 0x6B (R70). -/
def execUndefined6B (s : State) : Result := unassigned 0x6B s

/-- No instruction, opcode 0x73 (R70). -/
def execUndefined73 (s : State) : Result := unassigned 0x73 s

/-- No instruction, opcode 0x7B (R70). -/
def execUndefined7B (s : State) : Result := unassigned 0x7B s

/-- No instruction, opcode 0x82 (R70). -/
def execUndefined82 (s : State) : Result := unassigned 0x82 s

/-- No instruction, opcode 0x83 (R70). -/
def execUndefined83 (s : State) : Result := unassigned 0x83 s

/-- No instruction, opcode 0x8B (R70). -/
def execUndefined8B (s : State) : Result := unassigned 0x8B s

/-- No instruction, opcode 0x93 (R70). -/
def execUndefined93 (s : State) : Result := unassigned 0x93 s

/-- No instruction, opcode 0x9B (R70). -/
def execUndefined9B (s : State) : Result := unassigned 0x9B s

/-- No instruction, opcode 0xA3 (R70). -/
def execUndefinedA3 (s : State) : Result := unassigned 0xA3 s

/-- No instruction, opcode 0xAB (R70). -/
def execUndefinedAB (s : State) : Result := unassigned 0xAB s

/-- No instruction, opcode 0xB3 (R70). -/
def execUndefinedB3 (s : State) : Result := unassigned 0xB3 s

/-- No instruction, opcode 0xBB (R70). -/
def execUndefinedBB (s : State) : Result := unassigned 0xBB s

/-- No instruction, opcode 0xC2 (R70). -/
def execUndefinedC2 (s : State) : Result := unassigned 0xC2 s

/-- No instruction, opcode 0xC3 (R70). -/
def execUndefinedC3 (s : State) : Result := unassigned 0xC3 s

/-- No instruction, opcode 0xD3 (R70). -/
def execUndefinedD3 (s : State) : Result := unassigned 0xD3 s

/-- No instruction, opcode 0xD4 (R70). -/
def execUndefinedD4 (s : State) : Result := unassigned 0xD4 s

/-- No instruction, opcode 0xDC (R70). -/
def execUndefinedDC (s : State) : Result := unassigned 0xDC s

/-- No instruction, opcode 0xE2 (R70). -/
def execUndefinedE2 (s : State) : Result := unassigned 0xE2 s

/-- No instruction, opcode 0xE3 (R70). -/
def execUndefinedE3 (s : State) : Result := unassigned 0xE3 s

/-- No instruction, opcode 0xEB (R70). -/
def execUndefinedEB (s : State) : Result := unassigned 0xEB s

/-- No instruction, opcode 0xF3 (R70). -/
def execUndefinedF3 (s : State) : Result := unassigned 0xF3 s

/-- No instruction, opcode 0xF4 (R70). -/
def execUndefinedF4 (s : State) : Result := unassigned 0xF4 s

/-- No instruction, opcode 0xFB (R70). -/
def execUndefinedFB (s : State) : Result := unassigned 0xFB s

/-- No instruction, opcode 0xFC (R70). -/
def execUndefinedFC (s : State) : Result := unassigned 0xFC s

/-- WAI, opcode 0xCB (R71). -/
def execWaiRefused (s : State) : Result := waitForInterrupt s

end Sys2Proof.Machine
end

