-- ==== Sys2Proof/Machine/Transfer.lean ====
section
/-! DEFINITION. TAX TAY TXA TYA TSX TXS (41_load_store_transfer.md R128 to R133). -/

namespace Sys2Proof.Machine

/-- A register copied to another, N and Z from the value moved (R128 to R132). -/
def transfer (src dst : Reg) (base : Nat) (s : State) : Result :=
  .next (advance 1 base (setNZ (s.reg src) (setReg dst (s.reg src) s)))

/-- TAX, opcode 0xAA (R128). -/
def execTax (s : State) : Result := transfer .a .x (Instr.baseCycles .tax) s

/-- TAY, opcode 0xA8 (R129). -/
def execTay (s : State) : Result := transfer .a .y (Instr.baseCycles .tay) s

/-- TXA, opcode 0x8A (R130). -/
def execTxa (s : State) : Result := transfer .x .a (Instr.baseCycles .txa) s

/-- TYA, opcode 0x98 (R131). -/
def execTya (s : State) : Result := transfer .y .a (Instr.baseCycles .tya) s

/-- TSX, opcode 0xBA (R132). -/
def execTsx (s : State) : Result := transfer .sp .x (Instr.baseCycles .tsx) s

/-- TXS, opcode 0x9A (R133): X to SP, "TXS does not affect flags". -/
def execTxs (s : State) : Result := .next (advance 1 (Instr.baseCycles .txs) (setReg .sp s.x s))

end Sys2Proof.Machine
end

