-- ==== Sys2Proof/Machine/Dispatch.lean ====
section
/-! DEFINITION. One arm per constructor of Instr, each a direct call of its meaning. -/

namespace Sys2Proof.Machine

def exec (i : Instr) (s : State) : Host.Outcome State Fault Refusal :=
  match i with
  | .brk => Sys2Proof.Machine.execBrk s
  | .oraIzx zp8 => Sys2Proof.Machine.execOraIzx zp8 s
  | .undefined02 => Sys2Proof.Machine.execUndefined02 s
  | .undefined03 => Sys2Proof.Machine.execUndefined03 s
  | .tsbZp zp8 => Sys2Proof.Machine.execTsbZp zp8 s
  | .oraZp zp8 => Sys2Proof.Machine.execOraZp zp8 s
  | .aslZp zp8 => Sys2Proof.Machine.execAslZp zp8 s
  | .rmb0 zp8 => Sys2Proof.Machine.execRmb0 zp8 s
  | .php => Sys2Proof.Machine.execPhp s
  | .oraImm imm8 => Sys2Proof.Machine.execOraImm imm8 s
  | .aslAcc => Sys2Proof.Machine.execAslAcc s
  | .undefined0B => Sys2Proof.Machine.execUndefined0B s
  | .tsbAbs lo hi => Sys2Proof.Machine.execTsbAbs lo hi s
  | .oraAbs lo hi => Sys2Proof.Machine.execOraAbs lo hi s
  | .aslAbs lo hi => Sys2Proof.Machine.execAslAbs lo hi s
  | .bbr0 zp8 rel8 => Sys2Proof.Machine.execBbr0 zp8 rel8 s
  | .bpl rel8 => Sys2Proof.Machine.execBpl rel8 s
  | .oraIzy zp8 => Sys2Proof.Machine.execOraIzy zp8 s
  | .oraIzp zp8 => Sys2Proof.Machine.execOraIzp zp8 s
  | .undefined13 => Sys2Proof.Machine.execUndefined13 s
  | .trbZp zp8 => Sys2Proof.Machine.execTrbZp zp8 s
  | .oraZpx zp8 => Sys2Proof.Machine.execOraZpx zp8 s
  | .aslZpx zp8 => Sys2Proof.Machine.execAslZpx zp8 s
  | .rmb1 zp8 => Sys2Proof.Machine.execRmb1 zp8 s
  | .clc => Sys2Proof.Machine.execClc s
  | .oraAbsy lo hi => Sys2Proof.Machine.execOraAbsy lo hi s
  | .incAcc => Sys2Proof.Machine.execIncAcc s
  | .undefined1B => Sys2Proof.Machine.execUndefined1B s
  | .trbAbs lo hi => Sys2Proof.Machine.execTrbAbs lo hi s
  | .oraAbsx lo hi => Sys2Proof.Machine.execOraAbsx lo hi s
  | .aslAbsx lo hi => Sys2Proof.Machine.execAslAbsx lo hi s
  | .bbr1 zp8 rel8 => Sys2Proof.Machine.execBbr1 zp8 rel8 s
  | .jsr lo hi => Sys2Proof.Machine.execJsr lo hi s
  | .andIzx zp8 => Sys2Proof.Machine.execAndIzx zp8 s
  | .undefined22 => Sys2Proof.Machine.execUndefined22 s
  | .undefined23 => Sys2Proof.Machine.execUndefined23 s
  | .bitZp zp8 => Sys2Proof.Machine.execBitZp zp8 s
  | .andZp zp8 => Sys2Proof.Machine.execAndZp zp8 s
  | .rolZp zp8 => Sys2Proof.Machine.execRolZp zp8 s
  | .rmb2 zp8 => Sys2Proof.Machine.execRmb2 zp8 s
  | .plp => Sys2Proof.Machine.execPlp s
  | .andImm imm8 => Sys2Proof.Machine.execAndImm imm8 s
  | .rolAcc => Sys2Proof.Machine.execRolAcc s
  | .undefined2B => Sys2Proof.Machine.execUndefined2B s
  | .bitAbs lo hi => Sys2Proof.Machine.execBitAbs lo hi s
  | .andAbs lo hi => Sys2Proof.Machine.execAndAbs lo hi s
  | .rolAbs lo hi => Sys2Proof.Machine.execRolAbs lo hi s
  | .bbr2 zp8 rel8 => Sys2Proof.Machine.execBbr2 zp8 rel8 s
  | .bmi rel8 => Sys2Proof.Machine.execBmi rel8 s
  | .andIzy zp8 => Sys2Proof.Machine.execAndIzy zp8 s
  | .andIzp zp8 => Sys2Proof.Machine.execAndIzp zp8 s
  | .undefined33 => Sys2Proof.Machine.execUndefined33 s
  | .bitZpx zp8 => Sys2Proof.Machine.execBitZpx zp8 s
  | .andZpx zp8 => Sys2Proof.Machine.execAndZpx zp8 s
  | .rolZpx zp8 => Sys2Proof.Machine.execRolZpx zp8 s
  | .rmb3 zp8 => Sys2Proof.Machine.execRmb3 zp8 s
  | .sec => Sys2Proof.Machine.execSec s
  | .andAbsy lo hi => Sys2Proof.Machine.execAndAbsy lo hi s
  | .decAcc => Sys2Proof.Machine.execDecAcc s
  | .undefined3B => Sys2Proof.Machine.execUndefined3B s
  | .bitAbsx lo hi => Sys2Proof.Machine.execBitAbsx lo hi s
  | .andAbsx lo hi => Sys2Proof.Machine.execAndAbsx lo hi s
  | .rolAbsx lo hi => Sys2Proof.Machine.execRolAbsx lo hi s
  | .bbr3 zp8 rel8 => Sys2Proof.Machine.execBbr3 zp8 rel8 s
  | .rti => Sys2Proof.Machine.execRti s
  | .eorIzx zp8 => Sys2Proof.Machine.execEorIzx zp8 s
  | .undefined42 => Sys2Proof.Machine.execUndefined42 s
  | .undefined43 => Sys2Proof.Machine.execUndefined43 s
  | .undefined44 => Sys2Proof.Machine.execUndefined44 s
  | .eorZp zp8 => Sys2Proof.Machine.execEorZp zp8 s
  | .lsrZp zp8 => Sys2Proof.Machine.execLsrZp zp8 s
  | .rmb4 zp8 => Sys2Proof.Machine.execRmb4 zp8 s
  | .pha => Sys2Proof.Machine.execPha s
  | .eorImm imm8 => Sys2Proof.Machine.execEorImm imm8 s
  | .lsrAcc => Sys2Proof.Machine.execLsrAcc s
  | .undefined4B => Sys2Proof.Machine.execUndefined4B s
  | .jmpAbs lo hi => Sys2Proof.Machine.execJmpAbs lo hi s
  | .eorAbs lo hi => Sys2Proof.Machine.execEorAbs lo hi s
  | .lsrAbs lo hi => Sys2Proof.Machine.execLsrAbs lo hi s
  | .bbr4 zp8 rel8 => Sys2Proof.Machine.execBbr4 zp8 rel8 s
  | .bvc rel8 => Sys2Proof.Machine.execBvc rel8 s
  | .eorIzy zp8 => Sys2Proof.Machine.execEorIzy zp8 s
  | .eorIzp zp8 => Sys2Proof.Machine.execEorIzp zp8 s
  | .undefined53 => Sys2Proof.Machine.execUndefined53 s
  | .undefined54 => Sys2Proof.Machine.execUndefined54 s
  | .eorZpx zp8 => Sys2Proof.Machine.execEorZpx zp8 s
  | .lsrZpx zp8 => Sys2Proof.Machine.execLsrZpx zp8 s
  | .rmb5 zp8 => Sys2Proof.Machine.execRmb5 zp8 s
  | .cli => Sys2Proof.Machine.execCli s
  | .eorAbsy lo hi => Sys2Proof.Machine.execEorAbsy lo hi s
  | .phy => Sys2Proof.Machine.execPhy s
  | .undefined5B => Sys2Proof.Machine.execUndefined5B s
  | .undefined5C => Sys2Proof.Machine.execUndefined5C s
  | .eorAbsx lo hi => Sys2Proof.Machine.execEorAbsx lo hi s
  | .lsrAbsx lo hi => Sys2Proof.Machine.execLsrAbsx lo hi s
  | .bbr5 zp8 rel8 => Sys2Proof.Machine.execBbr5 zp8 rel8 s
  | .rts => Sys2Proof.Machine.execRts s
  | .adcIzx zp8 => Sys2Proof.Machine.execAdcIzx zp8 s
  | .undefined62 => Sys2Proof.Machine.execUndefined62 s
  | .undefined63 => Sys2Proof.Machine.execUndefined63 s
  | .stzZp zp8 => Sys2Proof.Machine.execStzZp zp8 s
  | .adcZp zp8 => Sys2Proof.Machine.execAdcZp zp8 s
  | .rorZp zp8 => Sys2Proof.Machine.execRorZp zp8 s
  | .rmb6 zp8 => Sys2Proof.Machine.execRmb6 zp8 s
  | .pla => Sys2Proof.Machine.execPla s
  | .adcImm imm8 => Sys2Proof.Machine.execAdcImm imm8 s
  | .rorAcc => Sys2Proof.Machine.execRorAcc s
  | .undefined6B => Sys2Proof.Machine.execUndefined6B s
  | .jmpInd lo hi => Sys2Proof.Machine.execJmpInd lo hi s
  | .adcAbs lo hi => Sys2Proof.Machine.execAdcAbs lo hi s
  | .rorAbs lo hi => Sys2Proof.Machine.execRorAbs lo hi s
  | .bbr6 zp8 rel8 => Sys2Proof.Machine.execBbr6 zp8 rel8 s
  | .bvs rel8 => Sys2Proof.Machine.execBvs rel8 s
  | .adcIzy zp8 => Sys2Proof.Machine.execAdcIzy zp8 s
  | .adcIzp zp8 => Sys2Proof.Machine.execAdcIzp zp8 s
  | .undefined73 => Sys2Proof.Machine.execUndefined73 s
  | .stzZpx zp8 => Sys2Proof.Machine.execStzZpx zp8 s
  | .adcZpx zp8 => Sys2Proof.Machine.execAdcZpx zp8 s
  | .rorZpx zp8 => Sys2Proof.Machine.execRorZpx zp8 s
  | .rmb7 zp8 => Sys2Proof.Machine.execRmb7 zp8 s
  | .sei => Sys2Proof.Machine.execSei s
  | .adcAbsy lo hi => Sys2Proof.Machine.execAdcAbsy lo hi s
  | .ply => Sys2Proof.Machine.execPly s
  | .undefined7B => Sys2Proof.Machine.execUndefined7B s
  | .jmpIax lo hi => Sys2Proof.Machine.execJmpIax lo hi s
  | .adcAbsx lo hi => Sys2Proof.Machine.execAdcAbsx lo hi s
  | .rorAbsx lo hi => Sys2Proof.Machine.execRorAbsx lo hi s
  | .bbr7 zp8 rel8 => Sys2Proof.Machine.execBbr7 zp8 rel8 s
  | .bra rel8 => Sys2Proof.Machine.execBra rel8 s
  | .staIzx zp8 => Sys2Proof.Machine.execStaIzx zp8 s
  | .undefined82 => Sys2Proof.Machine.execUndefined82 s
  | .undefined83 => Sys2Proof.Machine.execUndefined83 s
  | .styZp zp8 => Sys2Proof.Machine.execStyZp zp8 s
  | .staZp zp8 => Sys2Proof.Machine.execStaZp zp8 s
  | .stxZp zp8 => Sys2Proof.Machine.execStxZp zp8 s
  | .smb0 zp8 => Sys2Proof.Machine.execSmb0 zp8 s
  | .dey => Sys2Proof.Machine.execDey s
  | .bitImm imm8 => Sys2Proof.Machine.execBitImm imm8 s
  | .txa => Sys2Proof.Machine.execTxa s
  | .undefined8B => Sys2Proof.Machine.execUndefined8B s
  | .styAbs lo hi => Sys2Proof.Machine.execStyAbs lo hi s
  | .staAbs lo hi => Sys2Proof.Machine.execStaAbs lo hi s
  | .stxAbs lo hi => Sys2Proof.Machine.execStxAbs lo hi s
  | .bbs0 zp8 rel8 => Sys2Proof.Machine.execBbs0 zp8 rel8 s
  | .bcc rel8 => Sys2Proof.Machine.execBcc rel8 s
  | .staIzy zp8 => Sys2Proof.Machine.execStaIzy zp8 s
  | .staIzp zp8 => Sys2Proof.Machine.execStaIzp zp8 s
  | .undefined93 => Sys2Proof.Machine.execUndefined93 s
  | .styZpx zp8 => Sys2Proof.Machine.execStyZpx zp8 s
  | .staZpx zp8 => Sys2Proof.Machine.execStaZpx zp8 s
  | .stxZpy zp8 => Sys2Proof.Machine.execStxZpy zp8 s
  | .smb1 zp8 => Sys2Proof.Machine.execSmb1 zp8 s
  | .tya => Sys2Proof.Machine.execTya s
  | .staAbsy lo hi => Sys2Proof.Machine.execStaAbsy lo hi s
  | .txs => Sys2Proof.Machine.execTxs s
  | .undefined9B => Sys2Proof.Machine.execUndefined9B s
  | .stzAbs lo hi => Sys2Proof.Machine.execStzAbs lo hi s
  | .staAbsx lo hi => Sys2Proof.Machine.execStaAbsx lo hi s
  | .stzAbsx lo hi => Sys2Proof.Machine.execStzAbsx lo hi s
  | .bbs1 zp8 rel8 => Sys2Proof.Machine.execBbs1 zp8 rel8 s
  | .ldyImm imm8 => Sys2Proof.Machine.execLdyImm imm8 s
  | .ldaIzx zp8 => Sys2Proof.Machine.execLdaIzx zp8 s
  | .ldxImm imm8 => Sys2Proof.Machine.execLdxImm imm8 s
  | .undefinedA3 => Sys2Proof.Machine.execUndefinedA3 s
  | .ldyZp zp8 => Sys2Proof.Machine.execLdyZp zp8 s
  | .ldaZp zp8 => Sys2Proof.Machine.execLdaZp zp8 s
  | .ldxZp zp8 => Sys2Proof.Machine.execLdxZp zp8 s
  | .smb2 zp8 => Sys2Proof.Machine.execSmb2 zp8 s
  | .tay => Sys2Proof.Machine.execTay s
  | .ldaImm imm8 => Sys2Proof.Machine.execLdaImm imm8 s
  | .tax => Sys2Proof.Machine.execTax s
  | .undefinedAB => Sys2Proof.Machine.execUndefinedAB s
  | .ldyAbs lo hi => Sys2Proof.Machine.execLdyAbs lo hi s
  | .ldaAbs lo hi => Sys2Proof.Machine.execLdaAbs lo hi s
  | .ldxAbs lo hi => Sys2Proof.Machine.execLdxAbs lo hi s
  | .bbs2 zp8 rel8 => Sys2Proof.Machine.execBbs2 zp8 rel8 s
  | .bcs rel8 => Sys2Proof.Machine.execBcs rel8 s
  | .ldaIzy zp8 => Sys2Proof.Machine.execLdaIzy zp8 s
  | .ldaIzp zp8 => Sys2Proof.Machine.execLdaIzp zp8 s
  | .undefinedB3 => Sys2Proof.Machine.execUndefinedB3 s
  | .ldyZpx zp8 => Sys2Proof.Machine.execLdyZpx zp8 s
  | .ldaZpx zp8 => Sys2Proof.Machine.execLdaZpx zp8 s
  | .ldxZpy zp8 => Sys2Proof.Machine.execLdxZpy zp8 s
  | .smb3 zp8 => Sys2Proof.Machine.execSmb3 zp8 s
  | .clv => Sys2Proof.Machine.execClv s
  | .ldaAbsy lo hi => Sys2Proof.Machine.execLdaAbsy lo hi s
  | .tsx => Sys2Proof.Machine.execTsx s
  | .undefinedBB => Sys2Proof.Machine.execUndefinedBB s
  | .ldyAbsx lo hi => Sys2Proof.Machine.execLdyAbsx lo hi s
  | .ldaAbsx lo hi => Sys2Proof.Machine.execLdaAbsx lo hi s
  | .ldxAbsy lo hi => Sys2Proof.Machine.execLdxAbsy lo hi s
  | .bbs3 zp8 rel8 => Sys2Proof.Machine.execBbs3 zp8 rel8 s
  | .cpyImm imm8 => Sys2Proof.Machine.execCpyImm imm8 s
  | .cmpIzx zp8 => Sys2Proof.Machine.execCmpIzx zp8 s
  | .undefinedC2 => Sys2Proof.Machine.execUndefinedC2 s
  | .undefinedC3 => Sys2Proof.Machine.execUndefinedC3 s
  | .cpyZp zp8 => Sys2Proof.Machine.execCpyZp zp8 s
  | .cmpZp zp8 => Sys2Proof.Machine.execCmpZp zp8 s
  | .decZp zp8 => Sys2Proof.Machine.execDecZp zp8 s
  | .smb4 zp8 => Sys2Proof.Machine.execSmb4 zp8 s
  | .iny => Sys2Proof.Machine.execIny s
  | .cmpImm imm8 => Sys2Proof.Machine.execCmpImm imm8 s
  | .dex => Sys2Proof.Machine.execDex s
  | .waiRefused => Sys2Proof.Machine.execWaiRefused s
  | .cpyAbs lo hi => Sys2Proof.Machine.execCpyAbs lo hi s
  | .cmpAbs lo hi => Sys2Proof.Machine.execCmpAbs lo hi s
  | .decAbs lo hi => Sys2Proof.Machine.execDecAbs lo hi s
  | .bbs4 zp8 rel8 => Sys2Proof.Machine.execBbs4 zp8 rel8 s
  | .bne rel8 => Sys2Proof.Machine.execBne rel8 s
  | .cmpIzy zp8 => Sys2Proof.Machine.execCmpIzy zp8 s
  | .cmpIzp zp8 => Sys2Proof.Machine.execCmpIzp zp8 s
  | .undefinedD3 => Sys2Proof.Machine.execUndefinedD3 s
  | .undefinedD4 => Sys2Proof.Machine.execUndefinedD4 s
  | .cmpZpx zp8 => Sys2Proof.Machine.execCmpZpx zp8 s
  | .decZpx zp8 => Sys2Proof.Machine.execDecZpx zp8 s
  | .smb5 zp8 => Sys2Proof.Machine.execSmb5 zp8 s
  | .cld => Sys2Proof.Machine.execCld s
  | .cmpAbsy lo hi => Sys2Proof.Machine.execCmpAbsy lo hi s
  | .phx => Sys2Proof.Machine.execPhx s
  | .stp => Sys2Proof.Machine.execStp s
  | .undefinedDC => Sys2Proof.Machine.execUndefinedDC s
  | .cmpAbsx lo hi => Sys2Proof.Machine.execCmpAbsx lo hi s
  | .decAbsx lo hi => Sys2Proof.Machine.execDecAbsx lo hi s
  | .bbs5 zp8 rel8 => Sys2Proof.Machine.execBbs5 zp8 rel8 s
  | .cpxImm imm8 => Sys2Proof.Machine.execCpxImm imm8 s
  | .sbcIzx zp8 => Sys2Proof.Machine.execSbcIzx zp8 s
  | .undefinedE2 => Sys2Proof.Machine.execUndefinedE2 s
  | .undefinedE3 => Sys2Proof.Machine.execUndefinedE3 s
  | .cpxZp zp8 => Sys2Proof.Machine.execCpxZp zp8 s
  | .sbcZp zp8 => Sys2Proof.Machine.execSbcZp zp8 s
  | .incZp zp8 => Sys2Proof.Machine.execIncZp zp8 s
  | .smb6 zp8 => Sys2Proof.Machine.execSmb6 zp8 s
  | .inx => Sys2Proof.Machine.execInx s
  | .sbcImm imm8 => Sys2Proof.Machine.execSbcImm imm8 s
  | .nop => Sys2Proof.Machine.execNop s
  | .undefinedEB => Sys2Proof.Machine.execUndefinedEB s
  | .cpxAbs lo hi => Sys2Proof.Machine.execCpxAbs lo hi s
  | .sbcAbs lo hi => Sys2Proof.Machine.execSbcAbs lo hi s
  | .incAbs lo hi => Sys2Proof.Machine.execIncAbs lo hi s
  | .bbs6 zp8 rel8 => Sys2Proof.Machine.execBbs6 zp8 rel8 s
  | .beq rel8 => Sys2Proof.Machine.execBeq rel8 s
  | .sbcIzy zp8 => Sys2Proof.Machine.execSbcIzy zp8 s
  | .sbcIzp zp8 => Sys2Proof.Machine.execSbcIzp zp8 s
  | .undefinedF3 => Sys2Proof.Machine.execUndefinedF3 s
  | .undefinedF4 => Sys2Proof.Machine.execUndefinedF4 s
  | .sbcZpx zp8 => Sys2Proof.Machine.execSbcZpx zp8 s
  | .incZpx zp8 => Sys2Proof.Machine.execIncZpx zp8 s
  | .smb7 zp8 => Sys2Proof.Machine.execSmb7 zp8 s
  | .sed => Sys2Proof.Machine.execSed s
  | .sbcAbsy lo hi => Sys2Proof.Machine.execSbcAbsy lo hi s
  | .plx => Sys2Proof.Machine.execPlx s
  | .undefinedFB => Sys2Proof.Machine.execUndefinedFB s
  | .undefinedFC => Sys2Proof.Machine.execUndefinedFC s
  | .sbcAbsx lo hi => Sys2Proof.Machine.execSbcAbsx lo hi s
  | .incAbsx lo hi => Sys2Proof.Machine.execIncAbsx lo hi s
  | .bbs7 zp8 rel8 => Sys2Proof.Machine.execBbs7 zp8 rel8 s

end Sys2Proof.Machine
end

