-- ==== Sys2Proof/Machine/Step.lean ====
section
/-! DEFINITION. One step of the machine (40_addressing_modes.md R90), and where an instruction is placed so that the next
step runs it. -/

namespace Sys2Proof.Machine

/-- One step: fetch the instruction at CP (R60, R62), then execute it (R90). An error of the fetch ends the step (R353). -/
def step (s : State) : Host.Outcome State Fault Refusal :=
  match fetch s with
  | .ok (i, s1) => exec i s1
  | .error f => .fault f

/-- The state with an instruction's bytes stored where the next step fetches: at CP and the two addresses after it, modulo
65536 (R12, R62). It stands for the host's `memory write` of the program (assumption log 20). -/
def State.withFetchWord (s : State) (nbits w : Nat) : State :=
  placeByte s.cp (tableByte nbits w 0)
    (placeByte (offsetAddr s.cp 1) (tableByte nbits w 1)
      (placeByte (offsetAddr s.cp 2) (tableByte nbits w 2) s))

end Sys2Proof.Machine
end

