-- ==== Sys2Proof/Machine/Report.lean ====
section
/-! DEFINITION. What one step answers its caller (60_exceptions.md R353, R370 to R372). The StepOutcome is no state of the
block (R371), so it is computed from the step's instruction and its two states (assumption log 16). -/

namespace Sys2Proof.Machine

/-- `StepOutcome` (R370). In place of the disassembly text, which the spec leaves out, it carries the executed
instruction and its address. -/
structure StepOutcome where
  instr : Instr
  address : Addr
  consumed : Nat
  terminal : Bool
  deriving DecidableEq, Repr

/-- The results of a step (R353): a success with its outcome and the state after it, or an error. -/
inductive StepReport where
  | success (outcome : StepOutcome) (after : State)
  | error (f : Fault)
  | refused (r : Refusal)
  deriving DecidableEq, Repr

/-- The instruction is STP. -/
def isStp (i : Instr) : Bool := decide (i.mnemonic = .stp)

/-- The terminal flag, for the two values of `TERMINAL_RULE` (R371). -/
def terminalFlag (rule : TerminalRule) (i : Instr) (before after : Addr) : Bool :=
  match rule with
  | .stpOrCpUnchanged => isStp i || decide (after = before)
  | .literal => isStp i

/-- The cycles a step added to `cycle_count` (R370, 40_addressing_modes.md R112). -/
def consumedCycles (before after : State) : Nat := (after.cycleCount - before.cycleCount).toNat

/-- The outcome of a successful step of instruction `i` from `before` to `after` (R370). -/
def outcomeOf (i : Instr) (before after : State) : StepOutcome :=
  { instr := i
    address := before.cp
    consumed := consumedCycles before after
    terminal := terminalFlag Config.terminalRule i before.cp after.cp }

/-- `step(fabric, registers) -> StepOutcome` (R90): the same step as `step`, with its outcome. -/
def report (s : State) : StepReport :=
  match fetch s with
  | .error f => .error f
  | .ok (i, s1) =>
    match exec i s1 with
    | .next t => .success (outcomeOf i s t) t
    | .fault f => .error f
    | .refused r => .refused r

end Sys2Proof.Machine
end

