-- ==== Sys2Proof/Machine/Runner.lean ====
section
/-! DEFINITION. The host's operations on the block between steps (70_reset_and_hazards.md R390 to R398) and the fabric
operations it alone calls: slices, attach and reset (20_memory.md R40 to R44). -/

namespace Sys2Proof.Machine

/-- Why a verb failed. -/
inductive VerbError where
  /-- the fabric's or the step's error, unchanged (60_exceptions.md R357) -/
  | fabric (f : Fault)
  /-- `memory write` or `memory load` past 0xFFFF (R391, R392) -/
  | memoryOverflow
  /-- `registers set` with a value too wide for the field (R396) -/
  | rejected
  /-- `attach` of an empty range or of one past 0xFFFF (20_memory.md R42, U16) -/
  | attachRefused
  deriving DecidableEq, Repr

/-- What a verb leaves: a state, and an error if it failed. -/
inductive VerbResult where
  | done (s : State)
  | failed (e : VerbError) (s : State)
  deriving DecidableEq, Repr

/-- The state a verb leaves. -/
def VerbResult.state : VerbResult → State
  | .done s => s
  | .failed _ s => s

/-- `registers flush` (R390): the register file; the fabric is not touched. -/
def flushRegisters (s : State) : State :=
  { s with a := 0x00, x := 0x00, y := 0x00, sp := 0xFF, p := Status.flushed, cp := 0x0000, cycleCount := 0 }

/-- The fabric's `reset()`, which is `memory flush` (20_memory.md R43). -/
def fabricReset (s : State) : State := setRegions [{ kind := .ram, base := 0x0000, len := 0x10000 }] (setMem [] s)

/-- `marker`, the full reset (R395). -/
def marker (s : State) : State := fabricReset (flushRegisters s)

/-- The empty list of subsystems a fabric other than the reset one is built from (R399, 20_memory.md R42). -/
def emptyFabric (s : State) : State := setRegions [] (setMem [] s)

/-- The fields `registers set` names (R396). -/
inductive Field where
  | a | x | y | sp | status | cp
  deriving DecidableEq, Repr

/-- `registers set <field>=<value>` (R396): the field takes the value, or the operation is rejected and nothing changes.
A write to the status ignores bit 5 and writes B as given (10_state.md R15, R16). -/
def setField (f : Field) (v : Nat) (s : State) : VerbResult :=
  match f with
  | .a => if v < 256 then .done (setReg .a (BitVec.ofNat 8 v) s) else .failed .rejected s
  | .x => if v < 256 then .done (setReg .x (BitVec.ofNat 8 v) s) else .failed .rejected s
  | .y => if v < 256 then .done (setReg .y (BitVec.ofNat 8 v) s) else .failed .rejected s
  | .sp => if v < 256 then .done (setReg .sp (BitVec.ofNat 8 v) s) else .failed .rejected s
  | .status => if v < 256 then .done (setStatus (Status.ofByte (BitVec.ofNat 8 v)) s) else .failed .rejected s
  | .cp => if v < 65536 then .done (setCp (BitVec.ofNat 16 v) s) else .failed .rejected s

/-- A subsystem to attach: a RAM of a length, a ROM with its contents, or a peripheral of a length (R33, R34, R36). -/
inductive Subsystem where
  | ram (len : Nat)
  | rom (contents : List Byte)
  | peripheral (len device privateState : Nat)
  deriving DecidableEq, Repr

def Subsystem.len : Subsystem → Nat
  | .ram len => len
  | .rom contents => contents.length
  | .peripheral len _ _ => len

def Subsystem.kind : Subsystem → Kind
  | .ram _ => .ram
  | .rom _ => .rom
  | .peripheral _ dev st => .peripheral dev st

/-- The bytes a subsystem holds when it is created: RAM is zero-initialised, a ROM has its contents. -/
def Subsystem.contents : Subsystem → List Byte
  | .ram _ => []
  | .rom contents => contents
  | .peripheral _ _ _ => []

/-- The store with consecutive bytes written from an address on. -/
def writeBytes : Memory → Nat → List Byte → Memory
  | m, _, [] => m
  | m, a, b :: rest => writeBytes (Memory.write m a b) (a + 1) rest

/-- Two ranges share an address. -/
def overlaps (base len : Nat) (r : Region) : Bool :=
  decide (base < r.base.toNat + r.len) && decide (r.base.toNat < base + len)

/-- `attach(subsystem, base)` (20_memory.md R42); a failed attach changes nothing (60_exceptions.md R357). The preconditions
are checked first, so a range that breaks them and overlaps an existing one too reports `attachRefused` and not
`OverlappingSubsystem`: neither R42 nor D21 gives a precedence (DESIGN CHOICE, assumption log 23). -/
def attach (sub : Subsystem) (base : Nat) (s : State) : VerbResult :=
  if sub.len = 0 ∨ 65536 < base + sub.len then .failed .attachRefused s
  else if s.regions.any (overlaps base sub.len) then .failed (.fabric (.overlappingSubsystem base sub.len)) s
  else
    .done (setRegions (s.regions ++ [{ kind := sub.kind, base := BitVec.ofNat 16 base, len := sub.len }])
      (setMem (writeBytes (Memory.clear s.mem base sub.len) base sub.contents) s))

/-- The `n` addresses of a slice, modulo 65536 (R40). -/
def sliceAddrs : Addr → Nat → List Addr
  | _, 0 => []
  | a, n + 1 => a :: sliceAddrs (a + 1) n

/-- What a host read answers: a value or an error, and the state it leaves, in which a peripheral may have moved with
either (R397, 60_exceptions.md R357). -/
abbrev HostRead (α : Type) := Except Fault α × State

/-- Go on with a host read's value and the state after it, or end with its error and that state. -/
def afterRead {α β : Type} (r : HostRead α) (f : α → State → HostRead β) : HostRead β :=
  match r with
  | (.ok v, s) => f v s
  | (.error e, s) => (.error e, s)

/-- The fabric's reads of a list of addresses, in order, up to the first error. -/
def readAll : List Addr → State → HostRead (List Byte)
  | [], s => (.ok [], s)
  | a :: rest, s =>
    afterRead (fabricRead a s) fun b s1 =>
    afterRead (readAll rest s1) fun bs s2 =>
    (.ok (b :: bs), s2)

/-- The error of a slice that does not lie in mapped addresses: the first byte unmapped, or a later one (R40, R41). -/
def sliceError (addr : Addr) (n : Nat) (s : State) : Option Fault :=
  match sliceAddrs addr n with
  | [] => none
  | a0 :: rest =>
    if (lookup s.regions a0).isNone then some (.unmappedAddress a0)
    else if rest.any (fun a => (lookup s.regions a).isNone) then some (.crossBoundaryRead addr n)
    else none

/-- `read_slice(addr, n)` (R40). -/
def readSlice (addr : Addr) (n : Nat) (s : State) : HostRead (List Byte) :=
  match sliceError addr n s with
  | some f => (.error f, s)
  | none => readAll (sliceAddrs addr n) s

/-- The fabric's writes of a list of bytes from an address on, modulo 65536, in order, up to the first error: the state
they leave, and that error if there is one (R392). The bytes before the failing one stay written, and the state is the one
the failing write leaves, a peripheral's private state moved (R36; assumption log 21). -/
def writeAll : Addr → List Byte → State → VerbResult
  | _, [], s => .done s
  | a, b :: rest, s =>
    match fabricWrite a b s with
    | (some f, s1) => .failed (.fabric f) s1
    | (none, s1) => writeAll (a + 1) rest s1

/-- The state after a `write_slice` that failed, from index `i` of its range on: every RAM byte of the range and the
private state of every peripheral in it are free values; ROM keeps its bytes (R41, U7; assumption log 22). -/
def scrambleSlice (m : Memory) (addr : Addr) (bytes : List Byte) : Nat → List Addr → State → State
  | _, [], s => s
  | i, a :: rest, s =>
    let s1 :=
      match lookup s.regions a with
      | none => s
      | some r =>
        match r.kind with
        | .ram => setMem (Memory.write s.mem a.toNat (Config.failedSliceByte m addr bytes i)) s
        | .rom => s
        | .peripheral _ _ => setRegions (movePeripheral s.regions a (Config.failedSliceState m addr bytes i)) s
    scrambleSlice m addr bytes (i + 1) rest s1

/-- `write_slice(addr, bytes)` (R41). The mapping of the whole range is checked before any byte is written, so a slice with
a ROM byte before an unmapped address reports `CrossBoundaryRead` and not `WriteToReadOnly`: R41 and D20 give no precedence
(DESIGN CHOICE, assumption log 22). -/
def writeSlice (addr : Addr) (bytes : List Byte) (s : State) : VerbResult :=
  let after := scrambleSlice s.mem addr bytes 0 (sliceAddrs addr bytes.length) s
  match sliceError addr bytes.length s with
  | some f => .failed (.fabric f) after
  | none =>
    match writeAll addr bytes s with
    | .done t => .done t
    | .failed e _ => .failed e after

/-- `memory write addr bytes` (R392): past 0xFFFF it fails and writes nothing (decision D28). -/
def memoryWrite (addr : Addr) (bytes : List Byte) (s : State) : VerbResult :=
  if 65536 < addr.toNat + bytes.length then .failed .memoryOverflow s else writeAll addr bytes s

/-- `memory load addr path` towards the block: the file's bytes written (R391). -/
def memoryLoad (addr : Addr) (file : List Byte) (s : State) : VerbResult := memoryWrite addr file s

/-- How many addresses `start~end` names, both included, modulo 65536 (R392). -/
def fillCount (start last : Addr) : Nat := (last - start).toNat + 1

/-- The value of `memory fill start~end value?`: "Default value is 0x00" (R392). -/
def fillValue (value : Option Byte) : Byte := value.getD 0x00

/-- `memory fill start~end value?` (R392). -/
def memoryFill (start last : Addr) (value : Option Byte) (s : State) : VerbResult :=
  writeAll start (List.replicate (fillCount start last) (fillValue value)) s

/-- The address of the init vector's low byte (20_memory.md R50). -/
def initVector : Addr := 0xFFFC

/-- The host's read of a little-endian word (R393, R397). -/
def readWord (a : Addr) (s : State) : HostRead Addr :=
  afterRead (fabricRead a s) fun lo s1 =>
  afterRead (fabricRead (a + 1) s1) fun hi s2 =>
  (.ok (word lo hi), s2)

/-- `run init`: CP from the word at 0xFFFC, read through the fabric (R393). A failed read leaves CP as it was. -/
def runInit (s : State) : VerbResult :=
  match readWord initVector s with
  | (.error f, t) => .failed (.fabric f) t
  | (.ok target, t) => .done (setCp target t)

/-- `run <addr>`: CP from the address (R393). -/
def runAt (addr : Addr) (s : State) : State := setCp addr s

/-- How CP gets its value before a run (R393, R396). -/
inductive Entry where
  /-- `run init` -/
  | init
  /-- `run <addr>` -/
  | address (addr : Addr)
  /-- `registers set CP=` and `run` -/
  | set (v : Nat)
  /-- `run` alone -/
  | unchanged
  deriving DecidableEq, Repr

/-- The entry point set. -/
def setEntry (e : Entry) (s : State) : VerbResult :=
  match e with
  | .init => runInit s
  | .address addr => .done (runAt addr s)
  | .set v => setField .cp v s
  | .unchanged => .done s

/-- A host write of memory (R392). -/
inductive HostWrite where
  | write (addr : Addr) (bytes : List Byte)
  | fill (start last : Addr) (value : Option Byte)
  deriving DecidableEq, Repr

def hostWrite (w : HostWrite) (s : State) : VerbResult :=
  match w with
  | .write addr bytes => memoryWrite addr bytes s
  | .fill start last value => memoryFill start last value s

/-- A list of host operations one after the other, up to the first that fails. -/
def inTurn {α : Type} (f : α → State → VerbResult) : List α → State → VerbResult
  | [], s => .done s
  | x :: rest, s =>
    match f x s with
    | .done t => inTurn f rest t
    | .failed e t => .failed e t

/-- What the host reads of the register file (R397). -/
structure Registers where
  a : Byte
  x : Byte
  y : Byte
  sp : Byte
  status : Byte
  cp : Addr
  cycleCount : BitVec 64
  deriving DecidableEq, Repr

def State.registers (s : State) : Registers :=
  { a := s.a, x := s.x, y := s.y, sp := s.sp, status := s.p.toByte, cp := s.cp, cycleCount := s.cycleCount }

/-- A stop predicate as what it does: host reads, each depending on what the ones before it answered, and then an answer.
It has no move that writes (R394: "host reads only", R397). -/
inductive Condition where
  | answer (hit : Bool)
  | registers (next : Registers → Condition)
  | byte (a : Addr) (next : Byte → Condition)
  | slice (addr : Addr) (n : Nat) (next : List Byte → Condition)

/-- The predicate's answer, or the error of its first failing read, and the state its reads leave. -/
def Condition.eval : Condition → State → HostRead Bool
  | .answer hit, s => (.ok hit, s)
  | .registers next, s => (next s.registers).eval s
  | .byte a next, s => afterRead (fabricRead a s) fun b t => (next b).eval t
  | .slice addr n next, s => afterRead (readSlice addr n s) fun bs t => (next bs).eval t

/-- The stop clause of `run` (R394). -/
inductive Stop where
  | absent
  | untilCond (c : Condition)
  | whileCond (c : Condition)

/-- How a `run` verb ends (R394, 60_exceptions.md R372, R412). -/
inductive RunResult where
  /-- no stop clause: one step done -/
  | stepped (s : State)
  /-- the stop predicate said stop -/
  | stopped (s : State)
  /-- a terminal step of STP -/
  | stpHalted (s : State)
  /-- another terminal step: CP did not move -/
  | noProgress (s : State)
  /-- an error of a step; no state is to be used (R354) -/
  | error (f : Fault)
  /-- an error of the predicate's reads (R397), and the state they leave (60_exceptions.md R357) -/
  | predicateError (f : Fault) (s : State)
  /-- a step without a meaning -/
  | refused (r : Refusal)
  /-- not ended within the number of steps given -/
  | running (s : State)
  deriving DecidableEq, Repr

/-- Whether a step's outcome ends a loop, for the two values of `RUN_GUARD` (R394). -/
def endsLoop (guard : RunGuard) (o : StepOutcome) : Bool :=
  match guard with
  | .always => o.terminal
  | .stpOnlyInLoops => isStp o.instr

/-- The name of a terminal step's end (60_exceptions.md R372). -/
def haltResult (o : StepOutcome) (s : State) : RunResult := if isStp o.instr then .stpHalted s else .noProgress s

/-- The end of an iteration whose predicate answered `hit`: stop, or go on with `again` (R394). -/
def afterPredicate (stop hit : Bool) (s : State) (again : State → RunResult) : RunResult :=
  if hit == stop then .stopped s else again s

/-- The loop of R394, `fuel` steps at most: step, then the guard, then the predicate. `stopOn` is the predicate's answer
that stops: true for until, false for while. -/
def runLoop (guard : RunGuard) (stopOn : Bool) (c : Condition) : Nat → State → RunResult
  | 0, s => .running s
  | fuel + 1, s =>
    match report s with
    | .error f => .error f
    | .refused r => .refused r
    | .success o s1 =>
      if endsLoop guard o then haltResult o s1
      else
        match c.eval s1 with
        | (.error f, s2) => .predicateError f s2
        | (.ok hit, s2) => afterPredicate stopOn hit s2 (runLoop guard stopOn c fuel)

/-- The `run` verb after its target has set CP (R394): exactly one step without a stop clause, else the loop. -/
def run (fuel : Nat) (stop : Stop) (s : State) : RunResult :=
  match stop with
  | .absent =>
    match report s with
    | .error f => .error f
    | .refused r => .refused r
    | .success _ t => .stepped t
  | .untilCond c => runLoop Config.runGuard true c fuel s
  | .whileCond c => runLoop Config.runGuard false c fuel s

end Sys2Proof.Machine
end

