-- ==== Sys2Proof/Safety.lean ====
section
/-! DEFINITION. What counts as a sound state and a safe run: the invariants of 10_state.md R22, the launch premises of
70_reset_and_hazards.md R399, the states a host and the engine can reach (R398), and the end of a run (R412). -/

namespace Sys2Proof.Machine

/-- The range of a subsystem is not empty and lies in the address space (20_memory.md R42). -/
def Region.fits (r : Region) : Bool := decide (1 ≤ r.len) && decide (r.base.toNat + r.len ≤ 65536)

/-- Two ranges share no address (R31). -/
def Region.disjoint (r q : Region) : Bool := ! overlaps r.base.toNat r.len q

/-- The ranges fit and are pairwise disjoint (R31, R22). -/
def fabricOk : List Region → Bool
  | [] => true
  | r :: rs => r.fits && rs.all (fun q => r.disjoint q) && fabricOk rs

/-- The subsystem is a RAM or a ROM, whose bytes stand in the store. -/
def Region.stores (r : Region) : Bool :=
  match r.kind with
  | .ram => true
  | .rom => true
  | .peripheral _ _ => false

/-- Every listed byte belongs to a RAM or a ROM. -/
def storeBacked (s : State) : Bool :=
  s.mem.all fun c =>
    match lookup s.regions (BitVec.ofNat 16 c.1) with
    | none => false
    | some r => r.stores

/-- The invariant of the state: the store in canonical form, ranges that fit and are disjoint (R22, R31), and no byte
outside RAM and ROM. Bit 5 of P needs no clause: it is not storage (10_state.md R15). -/
abbrev SoundState (s : State) : Prop := Memory.wf s.mem = true ∧ fabricOk s.regions = true ∧ storeBacked s = true

/-- The fabric's map: kinds, devices and ranges, without the peripherals' private states. -/
def fabricMap (s : State) : List Region := s.regions.map fun r => r.withPrivateState 0

/-- `P_COVER` (R400): the addresses a program fetches from, reads or writes are mapped. -/
abbrev Covers (touched : Addr → Prop) (s : State) : Prop := ∀ a : Addr, touched a → (lookup s.regions a).isSome = true

/-- Every address is mapped, the strongest `P_COVER`. -/
abbrev Covered (s : State) : Prop := ∀ a : Addr, (lookup s.regions a).isSome = true

/-- The subsystem at an address is a RAM. -/
abbrev IsRam (s : State) (a : Addr) : Prop := (lookup s.regions a).map (fun r => r.kind) = some .ram

/-- The subsystem at an address is a ROM. -/
abbrev IsRom (s : State) (a : Addr) : Prop := (lookup s.regions a).map (fun r => r.kind) = some .rom

/-- The subsystem at an address is a peripheral. -/
abbrev IsPeripheral (s : State) (a : Addr) : Prop := (lookup s.regions a).map (fun r => r.stores) = some false

/-- Page 1 is mapped, for a program that pulls (R400). -/
abbrev StackMapped (s : State) : Prop := ∀ sp : Byte, (lookup s.regions (stackAddr sp)).isSome = true

/-- Page 1 is mapped and no ROM, for a program that pushes (R400). -/
abbrev StackWritable (s : State) : Prop := StackMapped s ∧ ∀ sp : Byte, ¬ IsRom s (stackAddr sp)

/-- Every address is RAM, as after the fabric's reset (20_memory.md R44). -/
abbrev AllRam (s : State) : Prop := ∀ a : Addr, IsRam s a

/-- No subsystem is a peripheral: a read changes nothing (R33, R34). -/
abbrev NoPeripheral (s : State) : Prop := ∀ r ∈ s.regions, r.stores = true

/-- Two states that differ in nothing but the private states of peripherals: what reads alone can lead to (20_memory.md
R33, R34, R36). -/
abbrev SameButPeripherals (s t : State) : Prop := t = { s with regions := t.regions } ∧ fabricMap t = fabricMap s

/-- The premise on `DEC_ARITH` a claim about a decimal result may name (42_arithmetic.md R153): both functions are the
reference ones. Nothing in the model assumes it. -/
abbrev DecArithIsReference : Prop :=
  ∀ (a m : Byte) (c : Bool), decimalAdc a m c = decAdcReference a m c ∧ decimalSbc a m c = decSbcReference a m c

/-- `P_REGS_FLUSHED` (R399): the register file is the one `registers flush` and then the listed `registers set` operations
leave (R390, R396). -/
abbrev RegsFlushed (sets : List (Field × Nat)) (s : State) : Prop :=
  ∃ q u, inTurn (fun fv => setField fv.1 fv.2) sets (flushRegisters q) = .done u ∧ s.registers = u.registers

/-- The subsystems and their contents at launch (R399). -/
inductive LaunchFabric where
  /-- "reset, then these writes" -/
  | resetThen (writes : List HostWrite)
  /-- "given outright" -/
  | given (regions : List Region) (mem : Memory)
  deriving DecidableEq, Repr

/-- `P_FABRIC` (R399). A fabric given outright is one `attach` can build (20_memory.md R42): it is
sound (assumption log 33). -/
def FabricAt (f : LaunchFabric) (s : State) : Prop :=
  match f with
  | .resetThen writes => ∃ q u, inTurn hostWrite writes (fabricReset q) = .done u ∧ s.regions = u.regions ∧ s.mem = u.mem
  | .given regions mem => s.regions = regions ∧ s.mem = mem ∧ SoundState s

/-- `P_ENTRY` (R399): how CP got its value (R393). -/
abbrev EntryPoint (e : Entry) (s t : State) : Prop := setEntry e s = .done t

/-- A launch: the registers set, the fabric, the entry point, in the order of R400. -/
structure Launch where
  sets : List (Field × Nat)
  fabric : LaunchFabric
  entry : Entry
  deriving DecidableEq, Repr

/-- The states a launch leads to (R399, R400, R412). -/
def Launch.LeadsTo (l : Launch) (t : State) : Prop := ∃ s, RegsFlushed l.sets s ∧ FabricAt l.fabric s ∧ EntryPoint l.entry s t

/-- One step that succeeds. -/
abbrev Steps (s t : State) : Prop := step s = .next t

/-- `P_NO_FAULT` (R399): the engine's next `n` steps all succeed, from `s` to `t`. -/
inductive RunsTo : Nat → State → State → Prop where
  | zero (s : State) : RunsTo 0 s s
  | succ {n : Nat} {s t u : State} (first : Steps s t) (rest : RunsTo n t u) : RunsTo (n + 1) s u

/-- The states that resets, host operations and successful steps lead to (R398, R399). A fabric other than the reset one
is built from the empty list by `attach` (20_memory.md R42). -/
inductive Reachable : State → Prop where
  | reset : Reachable State.reset
  | empty {s : State} (h : Reachable s) : Reachable (emptyFabric s)
  | step {s t : State} (h : Reachable s) (hs : Steps s t) : Reachable t
  | flush {s : State} (h : Reachable s) : Reachable (flushRegisters s)
  | memoryFlush {s : State} (h : Reachable s) : Reachable (fabricReset s)
  | set {s : State} (f : Field) (v : Nat) (h : Reachable s) : Reachable (setField f v s).state
  | attach {s : State} (sub : Subsystem) (base : Nat) (h : Reachable s) : Reachable (attach sub base s).state
  | writeVerb {s : State} (a : Addr) (bytes : List Byte) (h : Reachable s) : Reachable (memoryWrite a bytes s).state
  | fillVerb {s : State} (a b : Addr) (value : Option Byte) (h : Reachable s) : Reachable (memoryFill a b value s).state
  | writeSlice {s : State} (a : Addr) (bytes : List Byte) (h : Reachable s) : Reachable (writeSlice a bytes s).state
  | read {s : State} (a : Addr) (h : Reachable s) : Reachable (fabricRead a s).2
  | readSlice {s : State} (a : Addr) (n : Nat) (h : Reachable s) : Reachable (readSlice a n s).2
  | runInit {s : State} (h : Reachable s) : Reachable (runInit s).state
  | runAt {s : State} (a : Addr) (h : Reachable s) : Reachable (runAt a s)

/-- A run that has halted (R412 b): a step that succeeded with the terminal flag set. -/
abbrev Halts (s t : State) : Prop := ∃ o, report s = .success o t ∧ o.terminal = true

end Sys2Proof.Machine
end

