-- ==== Sys2Proof/Certificates/Slice0/Obligations.lean ====
section
/-! DEFINITION. The statements for the provers. Each docstring names the rule of spec/ it formalises, and the choice of the
spec or of the model it rests on where there is one. -/

open Sys2Proof Sys2Proof.Machine

/-! ## Reset and the fabric -/

/-- `registers flush` leaves the register values of R21 and R390 whatever they were, and does not touch the fabric; `marker`
(R395) leaves the reset state. `cycle_count` 0 is the spec's decision D17, the rest is SRC's list. -/
def Obligations.FlushAndMarkerLeaveResetValues : Prop :=
  ∀ s : State,
    (flushRegisters s).a = 0x00 ∧ (flushRegisters s).x = 0x00 ∧ (flushRegisters s).y = 0x00 ∧
    (flushRegisters s).sp = 0xFF ∧ (flushRegisters s).p.toByte = 0b00110000 ∧ (flushRegisters s).cp = 0x0000 ∧
    (flushRegisters s).cycleCount = 0 ∧ (flushRegisters s).regions = s.regions ∧ (flushRegisters s).mem = s.mem ∧
    marker s = State.reset

/-- R44: after the fabric's `reset()` every address reads 0x00, is mapped and is writable. -/
def Obligations.ResetFabricReadsZeroAndIsWritable : Prop :=
  ∀ (s : State) (a : Addr) (v : Byte),
    memRead a (fabricReset s) = .ok (0x00, fabricReset s) ∧ (lookup (fabricReset s).regions a).isSome = true ∧
    ∃ t, memWrite a v (fabricReset s) = .ok t

/-- R33: reading RAM answers its byte and changes nothing; a byte written to RAM is read back, and no other byte and no
register changes; a RAM just attached reads 0x00. R36, R38, R39: an access at `a` in a peripheral answers what the device
gives for its private state and the offset `a - base`, a byte, a success or an error of its own (assumption log 6, 32), and
that peripheral alone moves, to the private state the device gives; an error inside a step is the step's and leaves no state
(assumption log 7), one between steps leaves the device moved (assumption log 21). The store's canonical form is the model's
own invariant (`StepKeepsInvariant`). It rests on: that the device's functions depend on the private state and the offset
alone is the parameter PERIPHERAL, a free value (assumption log 5), and the offset the spec's decision D21 (assumption log
23). -/
def Obligations.RamAndPeripheralAccesses : Prop :=
  (∀ (s : State) (a : Addr), IsRam s a → ∃ b, peek s a = some b ∧ memRead a s = .ok (b, s)) ∧
  (∀ (s : State) (a : Addr) (v : Byte), Memory.wf s.mem = true → IsRam s a →
    ∃ t, memWrite a v s = .ok t ∧ memRead a t = .ok (v, t) ∧ t = { s with mem := t.mem } ∧
      ∀ b, b ≠ a → peek t b = peek s b) ∧
  (∀ (s t : State) (len base : Nat) (a : Addr),
    attach (.ram len) base s = .done t → base ≤ a.toNat → a.toNat < base + len → memRead a t = .ok (0x00, t)) ∧
  (∀ (s : State) (a : Addr) (v : Byte) (r : Region) (dev st : Nat),
    fabricOk s.regions = true → r ∈ s.regions → r.holds a = true → r.kind = .peripheral dev st →
    let offset := a.toNat - r.base.toNat
    let moved := fun n : Nat =>
      { s with regions := s.regions.map fun q => if q = r then { r with kind := .peripheral dev n } else q }
    (match Config.periphRead dev st offset with
      | (.ok b, n) => fabricRead a s = (.ok b, moved n) ∧ memRead a s = .ok (b, moved n)
      | (.error k, n) =>
        fabricRead a s = (.error (.peripheralError k a), moved n) ∧ memRead a s = .error (.peripheralError k a)) ∧
    match Config.periphWrite dev st offset v with
      | (none, n) => fabricWrite a v s = (none, moved n) ∧ memWrite a v s = .ok (moved n)
      | (some k, n) =>
        fabricWrite a v s = (some (.peripheralError k a), moved n) ∧ memWrite a v s = .error (.peripheralError k a))

/-- R35: a write that reaches ROM ends the instruction with `WriteToReadOnly`: stores, the write-back of the
read-modify-write instructions, and every push of JSR, BRK, PHA, PHP, PHX, PHY: the first, the second of JSR and BRK once
the first succeeded, the third of BRK once two succeeded. -/
def Obligations.StoreToRomFails : Prop :=
  (∀ (i : Instr) (m : AddrMode) (r : Resolved) (s s1 : State), i.mode = .mem m →
    (i.mnemonic ∈ [.sta, .stx, .sty, .stz, .asl, .lsr, .rol, .ror, .inc, .dec, .tsb, .trb] ∨
      ∃ n, i.mnemonic = .rmb n ∨ i.mnemonic = .smb n) →
    resolve m s = .ok (r, s1) → IsRom s r.ea → exec i s = .fault (.writeToReadOnly r.ea)) ∧
  (∀ (i : Instr) (s : State), i.mnemonic ∈ [.jsr, .brk, .pha, .php, .phx, .phy] →
    IsRom s (stackAddr s.sp) → exec i s = .fault (.writeToReadOnly (stackAddr s.sp))) ∧
  (∀ (i : Instr) (s s1 : State), i.mnemonic ∈ [.jsr, .brk] → push (highByte (offsetAddr s.cp 2)) s = .ok s1 →
    IsRom s (stackAddr (s.sp - 1)) → exec i s = .fault (.writeToReadOnly (stackAddr (s.sp - 1)))) ∧
  (∀ s s1 : State, pushWord (offsetAddr s.cp 2) s = .ok s1 → IsRom s (stackAddr (s.sp - 2)) →
    exec .brk s = .fault (.writeToReadOnly (stackAddr (s.sp - 2))))

/-- R31, R34: no step changes the kind, the device or the range of a subsystem, and no step changes a byte of ROM. It rests
on: no instruction attaches a subsystem (decision D21, assumption log 23). -/
def Obligations.StepKeepsFabricMapAndRom : Prop :=
  ∀ s t : State, step s = .next t →
    fabricMap t = fabricMap s ∧ ∀ a, IsRom s a → IsRom t a ∧ peek t a = peek s a

/-- R37: with disjoint ranges `lookup` finds the one subsystem that holds the address, whatever the order of the list; an
address no range holds is unmapped, and both accesses to it fail `UnmappedAddress` (R38, R39). -/
def Obligations.LookupIsUnique : Prop :=
  ∀ (s : State) (a : Addr) (v : Byte), fabricOk s.regions = true →
    (∀ r ∈ s.regions, r.holds a = true → lookup s.regions a = some r) ∧
    (∀ rs : List Region, rs.Perm s.regions → lookup rs a = lookup s.regions a) ∧
    ((∀ r ∈ s.regions, r.holds a = false) →
      lookup s.regions a = none ∧ memRead a s = .error (.unmappedAddress a) ∧
      memWrite a v s = .error (.unmappedAddress a))

/-- R42: `attach` of a range that shares an address with an existing one fails `OverlappingSubsystem` and changes nothing;
else the subsystem joins the list with that range, the ranges stay disjoint, and no byte outside the new range changes. An
empty range, or one that ends past 0xFFFF, is refused and changes nothing. R34: a ROM just attached reads its contents. The
preconditions on the range are the spec's decision D21, and that they come before the overlap the model's choice (assumption
log 23). -/
def Obligations.AttachJoinsOrRefuses : Prop :=
  (∀ (sub : Subsystem) (base : Nat) (s : State), sub.len = 0 ∨ 65536 < base + sub.len →
    attach sub base s = .failed .attachRefused s) ∧
  (∀ (contents : List Byte) (base k : Nat) (b : Byte) (s t : State), Memory.wf s.mem = true →
    attach (.rom contents) base s = .done t → contents[k]? = some b →
    IsRom t (BitVec.ofNat 16 (base + k)) ∧ memRead (BitVec.ofNat 16 (base + k)) t = .ok (b, t)) ∧
  ∀ (sub : Subsystem) (base : Nat) (s : State), fabricOk s.regions = true → 1 ≤ sub.len → base + sub.len ≤ 65536 →
    ((∃ r ∈ s.regions, ∃ a : Addr, r.holds a = true ∧ base ≤ a.toNat ∧ a.toNat < base + sub.len) →
      attach sub base s = .failed (.fabric (.overlappingSubsystem base sub.len)) s) ∧
    ((∀ r ∈ s.regions, ∀ a : Addr, r.holds a = true → a.toNat < base ∨ base + sub.len ≤ a.toNat) →
      ∃ t, attach sub base s = .done t ∧ fabricOk t.regions = true ∧
        t.regions = s.regions ++ [{ kind := sub.kind, base := BitVec.ofNat 16 base, len := sub.len }] ∧
        ∀ a : Addr, a.toNat < base ∨ base + sub.len ≤ a.toNat → peek t a = peek s a)

/-! ## Encoding, decode, the step -/

/-- Words written out from the formats of R63 and the opcodes of R66 and R67 decode to the instruction they stand for. It
rests on: the opcode map is general knowledge (decision D1, assumption log 8), and the refusal of 0xCB the spec's decision
D3 (assumption log 18). -/
def Obligations.OpcodeBytesDecode : Prop :=
  decode [0b10101001, 0x00] = .ok (.ldaImm 0x00, []) ∧
  decode [0b10100010, 0xFF, 0b10011010] = .ok (.ldxImm 0xFF, [0x9A]) ∧
  decode [0b11010000, 0x02] = .ok (.bne 0x02, []) ∧
  decode [0b11011011] = .ok (.stp, []) ∧
  decode [0b01101100, 0xFF, 0x12] = .ok (.jmpInd 0xFF 0x12, []) ∧
  decode [0b00100000, 0x00, 0x03] = .ok (.jsr 0x00 0x03, []) ∧
  decode [0b10010001, 0x10] = .ok (.staIzy 0x10, []) ∧
  decode [0b00111111, 0x10, 0x05] = .ok (.bbr3 0x10 0x05, []) ∧
  decode [0b11110111, 0x10] = .ok (.smb7 0x10, []) ∧
  decode [0b11001011] = .ok (.waiRefused, [])

/-- Decoding what the encoder writes gives the instruction back, with every operand byte, whatever follows (R63, R68). It
rests on: the opcode map is general knowledge (decision D1, assumption log 8). -/
def Obligations.DecodeOfEncode : Prop :=
  ∀ (i : Instr) (rest : List Byte), decode (encode i ++ rest) = .ok (i, rest)

/-- The other direction: what decodes is what the encoder writes, so two byte strings never decode to one instruction. It
rests on: the opcode map is general knowledge (decision D1, assumption log 8). -/
def Obligations.EncodeOfDecode : Prop :=
  ∀ (bytes rest : List Byte) (i : Instr), decode bytes = .ok (i, rest) → bytes = encode i ++ rest

/-- R68 and R60: the pair of mnemonic and mode tag determines the opcode of an assigned row; the opcode byte alone decides
mnemonic, mode tag and base cycles; exactly 211 opcode bytes are assigned. It rests on: the opcode map is general knowledge
(decision D1, assumption log 8), and the table of base cycle counts (decision D5, assumption log 9). -/
def Obligations.OpcodeAndMnemonicModeDetermineEachOther : Prop :=
  (∀ i j : Instr, WellFormed i → WellFormed j → i.mnemonic = j.mnemonic → i.mode.tag = j.mode.tag →
    i.opcode = j.opcode) ∧
  (∀ op b1 b2 : Byte, (decodeOp op b1 b2).opcode = op ∧
    (decodeOp op b1 b2).mnemonic = (decodeOp op 0 0).mnemonic ∧
    (decodeOp op b1 b2).mode.tag = (decodeOp op 0 0).mode.tag ∧
    (decodeOp op b1 b2).baseCycles = (decodeOp op 0 0).baseCycles ∧
    1 ≤ (decodeOp op b1 b2).length ∧ (decodeOp op b1 b2).length ≤ 3) ∧
  ((List.range 256).filter fun n => (decodeOp (BitVec.ofNat 8 n) 0 0).assigned).length = 211

/-- R90 steps 1 and 2: when the bytes at CP, modulo 65536, decode to `i`, the step is `exec` of `i` at that state, with
nothing around it. Where a byte comes from a peripheral, `exec` runs at the state the fetch's reads leave, which differs in
that peripheral's private state alone. It rests on: the number and order of the accesses and the wrap of CP are the spec's
decisions D11 and D12 (assumption log 19). -/
def Obligations.StepRunsDecodedInstruction : Prop :=
  (∀ (s : State) (bytes rest : List Byte) (i : Instr), decode bytes = .ok (i, rest) →
    (∀ k, k < i.length → ∃ b, bytes[k]? = some b ∧ peek s (s.cp + BitVec.ofNat 16 k) = some b) →
    step s = exec i s) ∧
  (∀ (s s1 : State) (i : Instr), fetch s = .ok (i, s1) → step s = exec i s1 ∧ SameButPeripherals s s1)

/-- R355, R352: the first error in the order of the accesses is the step's: that of the opcode's read, then an unknown
opcode, then those of the reads of the operand bytes the instruction has; an unknown opcode's operand bytes are never
fetched. At an unmapped address the error is `UnmappedAddress`; in a peripheral it is the device's own, if it has one
(assumption log 6). It rests on: the order is given by the spec's decisions D11 and D22, the unassigned set D2 and D3
(assumption log 18, 19). -/
def Obligations.FetchErrorsComeInAccessOrder : Prop :=
  (∀ (a : Addr) (s : State), lookup s.regions a = none → memRead a s = .error (.unmappedAddress a)) ∧
  ∀ s : State,
    (∀ f, memRead s.cp s = .error f → step s = .fault f) ∧
    ∀ (op : Byte) (s1 : State), memRead s.cp s = .ok (op, s1) →
      ((decodeOp op 0 0).assigned = false → step s = .fault (.unknownOpcode op s.cp)) ∧
      (∀ f, 2 ≤ opcodeLength op → memRead (s.cp + 1) s1 = .error f → step s = .fault f) ∧
      (∀ (b1 : Byte) (s2 : State) (f : Fault), 3 ≤ opcodeLength op → memRead (s.cp + 1) s1 = .ok (b1, s2) →
        memRead (s.cp + 2) s2 = .error f → step s = .fault f)

/-! ## Operands -/

/-- R94 to R99: the effective address and the page-crossing flag of the modes without a pointer, as numbers; they access
nothing and change nothing. It rests on: zp, zpx and zpy are general knowledge and the wraps the spec's decision D13
(assumption log 19, 28). -/
def Obligations.ModesWithoutPointer : Prop :=
  ∀ (b1 b2 : Byte) (s : State),
    let base := b1.toNat + 256 * b2.toNat
    let indexed := fun i : Byte => (base + i.toNat) % 65536
    resolve (.zp b1) s = .ok (⟨BitVec.ofNat 16 b1.toNat, false⟩, s) ∧
    resolve (.zpx b1) s = .ok (⟨BitVec.ofNat 16 ((b1.toNat + s.x.toNat) % 256), false⟩, s) ∧
    resolve (.zpy b1) s = .ok (⟨BitVec.ofNat 16 ((b1.toNat + s.y.toNat) % 256), false⟩, s) ∧
    resolve (.abs b1 b2) s = .ok (⟨BitVec.ofNat 16 base, false⟩, s) ∧
    resolve (.absx b1 b2) s =
      .ok (⟨BitVec.ofNat 16 (indexed s.x), decide (base / 256 ≠ indexed s.x / 256)⟩, s) ∧
    resolve (.absy b1 b2) s =
      .ok (⟨BitVec.ofNat 16 (indexed s.y), decide (base / 256 ≠ indexed s.y / 256)⟩, s)

/-- R101: a zero-page pointer's low byte is read at `z`, then its high byte at `(z + 1) mod 256`, both in page 0. -/
def Obligations.ZeroPagePointerWrapsInPageZero : Prop :=
  ∀ (z lo hi : Byte) (s s1 s2 : State), memRead (BitVec.ofNat 16 z.toNat) s = .ok (lo, s1) →
    memRead (BitVec.ofNat 16 ((z.toNat + 1) % 256)) s1 = .ok (hi, s2) →
    memRead16zp z s = .ok (BitVec.ofNat 16 (lo.toNat + 256 * hi.toNat), s2)

/-- R100, R102 to R105: the effective address of the modes that read a pointer, from the pointer's two bytes `lo` and `hi`
in RAM or ROM; the state is not changed. It rests on: izx, izp, iax and the place of the index in izy are general knowledge,
the wraps the spec's decisions D12 and D13 (assumption log 19, 28). -/
def Obligations.ModesWithPointer : Prop :=
  ∀ (b1 b2 lo hi : Byte) (s : State),
    let pointer := lo.toNat + 256 * hi.toNat
    let indexed := (pointer + s.y.toNat) % 65536
    let zero := fun n : Nat => BitVec.ofNat 16 (n % 256)
    let wide := fun n : Nat => BitVec.ofNat 16 (n % 65536)
    (peek s (zero (b1.toNat + s.x.toNat)) = some lo → peek s (zero (b1.toNat + s.x.toNat + 1)) = some hi →
      resolve (.izx b1) s = .ok (⟨BitVec.ofNat 16 pointer, false⟩, s)) ∧
    (peek s (zero b1.toNat) = some lo → peek s (zero (b1.toNat + 1)) = some hi →
      resolve (.izp b1) s = .ok (⟨BitVec.ofNat 16 pointer, false⟩, s) ∧
      resolve (.izy b1) s = .ok (⟨BitVec.ofNat 16 indexed, decide (pointer / 256 ≠ indexed / 256)⟩, s)) ∧
    (peek s (wide (b1.toNat + 256 * b2.toNat)) = some lo → peek s (wide (b1.toNat + 256 * b2.toNat + 1)) = some hi →
      resolve (.ind b1 b2) s = .ok (⟨BitVec.ofNat 16 pointer, false⟩, s)) ∧
    (peek s (wide (b1.toNat + 256 * b2.toNat + s.x.toNat)) = some lo →
      peek s (wide (b1.toNat + 256 * b2.toNat + s.x.toNat + 1)) = some hi →
      resolve (.iax b1 b2) s = .ok (⟨BitVec.ofNat 16 pointer, false⟩, s))

/-- R93, R108: an immediate operand is its byte, without an access; a memory operand is what one read of the resolved
address answers, with the page-crossing flag of the resolution, or the first error of the two. R109: resolving and reading
an operand changes no register and no byte of RAM or ROM, and nothing at all where there is no peripheral. Where every
address is mapped it answers, or fails with the own error of a peripheral that is there (assumption log 6). -/
def Obligations.OperandReadsChangeNoRegisterAndNoByte : Prop :=
  (∀ (v : Byte) (s : State), readSource (.imm v) s = .ok (⟨v, false⟩, s)) ∧
  (∀ (m : AddrMode) (r : Resolved) (s s1 : State), resolve m s = .ok (r, s1) →
    (∀ v s2, memRead r.ea s1 = .ok (v, s2) → readSource (.mem m) s = .ok (⟨v, r.crossed⟩, s2)) ∧
    ∀ f, memRead r.ea s1 = .error f → readSource (.mem m) s = .error f) ∧
  (∀ (m : AddrMode) (s : State) (f : Fault), resolve m s = .error f → readSource (.mem m) s = .error f) ∧
  (∀ (m : AddrMode) (r : Resolved) (s s1 : State), resolve m s = .ok (r, s1) →
    SameButPeripherals s s1 ∧ (NoPeripheral s → s1 = s)) ∧
  (∀ (src : Source) (o : Operand) (s s1 : State), readSource src s = .ok (o, s1) →
    SameButPeripherals s s1 ∧ (∀ a, peek s1 a = peek s a) ∧ (NoPeripheral s → s1 = s)) ∧
  (∀ (src : Source) (m : AddrMode) (s : State), Covered s →
    (NoPeripheral s → (∃ o, readSource src s = .ok (o, s)) ∧ ∃ r, resolve m s = .ok (r, s)) ∧
    (∀ f, readSource src s = .error f ∨ resolve m s = .error f → ∃ k a, f = .peripheralError k a ∧ IsPeripheral s a))

/-! ## Loads, stores, transfers -/

/-- R120: LDA, LDX and LDY with their operand readable complete: the value goes to the register unchanged, N and Z come from
it, one cycle more when the index crosses a page, and nothing else changes: no other flag, no other register, no memory. It
rests on: the table of base cycle counts and the set of page cycles (decisions D5 and D6, assumption log 9, 10). -/
def Obligations.LoadResult : Prop :=
  ∀ (i : Instr) (r : Reg) (src : Source) (o : Operand) (s s1 : State),
    (i.mnemonic = .lda ∧ r = .a ∨ i.mnemonic = .ldx ∧ r = .x ∨ i.mnemonic = .ldy ∧ r = .y) →
    modeSource i.mode = some src → readSource src s = .ok (o, s1) →
    exec i s = .next (setReg r o.value { s1 with
      p := { s.p with n := decide (128 ≤ o.value.toNat), z := decide (o.value = 0) }
      cp := s.cp + BitVec.ofNat 16 i.length
      cycleCount := s.cycleCount + BitVec.ofNat 64 (i.baseCycles + if o.crossed then 1 else 0) }) ∧
    s1.mem = s.mem

/-- R124 to R127: STA, STX, STY and STZ with their address resolved and the write accepted complete: that one write of A, X,
Y or 0x00, no flag, no register, no page cycle; a RAM byte stored is what the next read or fetch there gets (R55), and no
other byte changes. It rests on: the table of base cycle counts and the set of page cycles (decisions D5 and D6, assumption
log 9, 10), and that STZ stores 0x00 is general knowledge (assumption log 28). -/
def Obligations.StoreResult : Prop :=
  ∀ (i : Instr) (m : AddrMode) (r : Resolved) (v : Byte) (s s1 s2 : State),
    (i.mnemonic = .sta ∧ v = s.a ∨ i.mnemonic = .stx ∧ v = s.x ∨ i.mnemonic = .sty ∧ v = s.y ∨
      i.mnemonic = .stz ∧ v = 0x00) →
    modeAddress i.mode = some m → resolve m s = .ok (r, s1) → memWrite r.ea v s1 = .ok s2 →
    ∃ t, exec i s = .next t ∧
      t = { s with
        cp := s.cp + BitVec.ofNat 16 i.length
        cycleCount := s.cycleCount + BitVec.ofNat 64 i.baseCycles
        regions := s2.regions
        mem := s2.mem } ∧
      (Memory.wf s.mem = true → IsRam s r.ea → memRead r.ea t = .ok (v, t)) ∧
      ∀ a, a ≠ r.ea → peek t a = peek s a

/-- R128 to R133: the six transfers complete in every state; TXS alone touches no flag. It rests on: semantics the spec
marks as general knowledge (assumption log 28), and the table of base cycle counts (decision D5, assumption log 9). -/
def Obligations.TransferResult : Prop :=
  ∀ s : State,
    let moved := fun v : Byte =>
      { s with
        p := { s.p with n := decide (128 ≤ v.toNat), z := decide (v = 0) }
        cp := s.cp + 1
        cycleCount := s.cycleCount + 2 }
    exec .tax s = .next { moved s.a with x := s.a } ∧
    exec .tay s = .next { moved s.a with y := s.a } ∧
    exec .txa s = .next { moved s.x with a := s.x } ∧
    exec .tya s = .next { moved s.y with a := s.y } ∧
    exec .tsx s = .next { moved s.sp with x := s.sp } ∧
    exec .txs s = .next { s with sp := s.x, cp := s.cp + 1, cycleCount := s.cycleCount + 2 }

/-! ## Arithmetic -/

/-- R150: the binary adder's sum, carry, overflow, N and Z, with V both as SRC's formula and as the signed sum leaving
[-128, 127]. -/
def Obligations.BinaryAdderRule : Prop :=
  ∀ (a m : Byte) (c : Bool),
    let r := addBinary a m c
    let sum := a.toNat + m.toNat + c.toNat
    r.result.toNat = sum % 256 ∧ r.c = decide (256 ≤ sum) ∧
    r.v = decide ((a ^^^ r.result) &&& (m ^^^ r.result) &&& 0x80 ≠ 0) ∧
    (r.v = true ↔ a.toInt + m.toInt + c.toNat < -128 ∨ 127 < a.toInt + m.toInt + c.toNat) ∧
    r.n = decide (128 ≤ r.result.toNat) ∧ r.z = decide (r.result = 0)

/-- R152: in binary mode SBC is A - M - (1 - C): the result modulo 256, C set exactly when there is no borrow, V exactly
when the signed difference leaves [-128, 127]. That the adder is fed the complement is the spec's decision D23 (assumption
log 28). -/
def Obligations.BinarySubtractionRule : Prop :=
  ∀ (a m : Byte) (c : Bool),
    let r := subBinary a m c
    let borrow := 1 - c.toNat
    r.result = BitVec.ofInt 8 ((a.toNat : Int) - m.toNat - borrow) ∧
    (r.c = true ↔ m.toNat + borrow ≤ a.toNat) ∧
    (r.v = true ↔ a.toInt - m.toInt - borrow < -128 ∨ 127 < a.toInt - m.toInt - borrow) ∧
    r.n = decide (128 ≤ r.result.toNat) ∧ r.z = decide (r.result = 0)

/-- R151, R152, R154: ADC and SBC with their operand readable complete: A and N, V, Z, C from the adder with D = 0 and from
the open functions of `DEC_ARITH` with D = 1 (for every value they may have: assumption log 4), one cycle more with D = 1
and one more when the index crosses a page, and nothing else changes. It rests on: the table of base cycle counts and the
set of page cycles (decisions D5 and D6, assumption log 9, 10), the complemented operand D23 (assumption log 28), and the
decimal result is a free value (assumption log 4). -/
def Obligations.AddSubtractResult : Prop :=
  ∀ (i : Instr) (src : Source) (o : Operand) (q : ArithResult) (s s1 : State),
    (i.mnemonic = .adc ∧ q = (if s.p.d then decimalAdc s.a o.value s.p.c else addBinary s.a o.value s.p.c) ∨
      i.mnemonic = .sbc ∧
        q = (if s.p.d then decimalSbc s.a o.value s.p.c else addBinary s.a (o.value ^^^ 0xFF) s.p.c)) →
    modeSource i.mode = some src → readSource src s = .ok (o, s1) →
    exec i s = .next { s1 with
      a := q.result
      p := { s.p with n := q.n, v := q.v, z := q.z, c := q.c }
      cp := s.cp + BitVec.ofNat 16 i.length
      cycleCount := s.cycleCount +
        BitVec.ofNat 64 (i.baseCycles + (if o.crossed then 1 else 0) + if s.p.d then 1 else 0) } ∧
    s1.mem = s.mem

/-- R154, R14: D decides the result of ADC and SBC, where it adds one cycle, and is pushed by PHP and BRK; every other
instruction answers from two states that differ in D alone two states that differ in D at most. It rests on: the claim
compares two runs and is relative to the choice of the model that a peripheral answers by functions of the private state,
the offset and the byte written (R36, decision D19, assumption log 5), the one cycle more is modulo 2^64 (assumption log 3),
and semantics the spec marks as general knowledge (assumption log 28). -/
def Obligations.DecimalFlagReadOnlyByAddSubtractAndPushes : Prop :=
  (∀ (i : Instr) (s t0 t1 : State), i.mnemonic = .adc ∨ i.mnemonic = .sbc →
    exec i { s with p := { s.p with d := false } } = .next t0 →
    exec i { s with p := { s.p with d := true } } = .next t1 → t1.cycleCount = t0.cycleCount + 1) ∧
  (∀ (i : Instr) (s t : State) (d : Bool), i.mnemonic ∉ [.adc, .sbc, .php, .brk] → exec i s = .next t →
    ∃ e, exec i { s with p := { s.p with d := d } } = .next { t with p := { t.p with d := e } })

/-- R153: the reference value of `DEC_ARITH` on packed decimal digits: two numbers below 100 and a carry add to their sum
modulo 100 with C the hundred, and subtract to the difference modulo 100 with C the absent borrow. That the reference value
is this one is the spec's decision D8; the machine does not assume it (assumption log 4). -/
def Obligations.DecimalReferenceAddsAndSubtractsDigits : Prop :=
  ∀ (x y : Nat) (c : Bool), x < 100 → y < 100 →
    let packed := fun n : Nat => BitVec.ofNat 8 (n % 100 / 10 * 16 + n % 10)
    let sum := x + y + c.toNat
    let difference := x + 99 + c.toNat - y
    (decAdcReference (packed x) (packed y) c).result = packed sum ∧
    (decAdcReference (packed x) (packed y) c).c = decide (100 ≤ sum) ∧
    (decSbcReference (packed x) (packed y) c).result = packed difference ∧
    (decSbcReference (packed x) (packed y) c).c = decide (100 ≤ difference)

/-! ## Logic and bits -/

/-- R170 to R172: AND, ORA and EOR with their operand readable complete: A from A and the operand, N and Z from the new A,
nothing else. It rests on: the table of base cycle counts and the set of page cycles (decisions D5 and D6, assumption log 9,
10). -/
def Obligations.LogicResult : Prop :=
  ∀ (i : Instr) (src : Source) (o : Operand) (v : Byte) (s s1 : State),
    (i.mnemonic = .and ∧ v = s.a &&& o.value ∨ i.mnemonic = .ora ∧ v = s.a ||| o.value ∨
      i.mnemonic = .eor ∧ v = s.a ^^^ o.value) →
    modeSource i.mode = some src → readSource src s = .ok (o, s1) →
    exec i s = .next { s1 with
      a := v
      p := { s.p with n := decide (128 ≤ v.toNat), z := decide (v = 0) }
      cp := s.cp + BitVec.ofNat 16 i.length
      cycleCount := s.cycleCount + BitVec.ofNat 64 (i.baseCycles + if o.crossed then 1 else 0) } ∧
    s1.mem = s.mem

/-- R173: BIT with its operand readable completes: Z from A AND the operand; N and V from bits 7 and 6 of the operand in the
memory forms, unchanged in the immediate form (`BIT_FLAGS` = w65c02: the spec's decision D9, assumption log 12); A, C and
all else unchanged. It rests on: the table of base cycle counts and the set of page cycles (decisions D5 and D6, assumption
log 9, 10). -/
def Obligations.BitTestResult : Prop :=
  ∀ (i : Instr) (src : Source) (o : Operand) (s s1 : State), i.mnemonic = .bit →
    modeSource i.mode = some src → readSource src s = .ok (o, s1) →
    exec i s = .next { s1 with
      p := { s.p with
        z := decide (s.a &&& o.value = 0)
        n := if i.mode.tag = .imm then s.p.n else o.value.getLsbD 7
        v := if i.mode.tag = .imm then s.p.v else o.value.getLsbD 6 }
      cp := s.cp + BitVec.ofNat 16 i.length
      cycleCount := s.cycleCount + BitVec.ofNat 64 (i.baseCycles + if o.crossed then 1 else 0) } ∧
    s1.mem = s.mem

/-- R174 to R177: TSB, TRB, RMBn and SMBn with their byte `v` readable and the write accepted complete: one read, one write
of the byte with bits set or cleared; TSB and TRB set Z from A AND the old byte, RMBn and SMBn write no flag; nothing else
changes. It rests on: semantics the spec marks as general knowledge (assumption log 28), and the table of base cycle counts
(decision D5, assumption log 9). -/
def Obligations.MemoryBitResult : Prop :=
  ∀ (i : Instr) (m : AddrMode) (r : Resolved) (v w : Byte) (z : Bool) (s s1 s2 s3 : State),
    (i.mnemonic = .tsb ∧ w = v ||| s.a ∧ z = decide (s.a &&& v = 0) ∨
      i.mnemonic = .trb ∧ w = v &&& ~~~s.a ∧ z = decide (s.a &&& v = 0) ∨
      ∃ n : Fin 8, i.mnemonic = .rmb n ∧ w = v &&& ~~~(BitVec.ofNat 8 (2 ^ n.val)) ∧ z = s.p.z ∨
        i.mnemonic = .smb n ∧ w = v ||| BitVec.ofNat 8 (2 ^ n.val) ∧ z = s.p.z) →
    modeAddress i.mode = some m → resolve m s = .ok (r, s1) → memRead r.ea s1 = .ok (v, s2) →
    memWrite r.ea w s2 = .ok s3 →
    exec i s = .next { s with
      p := { s.p with z := z }
      cp := s.cp + BitVec.ofNat 16 i.length
      cycleCount := s.cycleCount + BitVec.ofNat 64 i.baseCycles
      regions := s3.regions
      mem := s3.mem }

/-! ## Shifts, increments, decrements -/

/-- R200 to R203, as numbers: what enters and what leaves the byte. It rests on: semantics the spec marks as general
knowledge (assumption log 28). -/
def Obligations.ShiftByteRules : Prop :=
  ∀ (c : Bool) (m : Byte),
    (aslByte c m).result.toNat = 2 * m.toNat % 256 ∧ (aslByte c m).carry = decide (128 ≤ m.toNat) ∧
    (lsrByte c m).result.toNat = m.toNat / 2 ∧ (lsrByte c m).carry = decide (m.toNat % 2 = 1) ∧
    (rolByte c m).result.toNat = 2 * m.toNat % 256 + c.toNat ∧ (rolByte c m).carry = decide (128 ≤ m.toNat) ∧
    (rorByte c m).result.toNat = m.toNat / 2 + 128 * c.toNat ∧ (rorByte c m).carry = decide (m.toNat % 2 = 1)

/-- R204, R220 to R225: the accumulator shifts and the register increments and decrements complete in every state: the
result to the register, N and Z from it, C the bit shifted out and untouched by the increments and decrements; nothing else.
It rests on: the table of base cycle counts (decision D5, assumption log 9), and semantics the spec marks as general
knowledge (assumption log 28). -/
def Obligations.RegisterShiftAndStepResult : Prop :=
  ∀ s : State,
    let done := fun (v : Byte) (c : Bool) =>
      { s with
        p := { s.p with n := decide (128 ≤ v.toNat), z := decide (v = 0), c := c }
        cp := s.cp + 1
        cycleCount := s.cycleCount + 2 }
    let shifted := fun q : ShiftResult => { done q.result q.carry with a := q.result }
    exec .aslAcc s = .next (shifted (aslByte s.p.c s.a)) ∧ exec .lsrAcc s = .next (shifted (lsrByte s.p.c s.a)) ∧
    exec .rolAcc s = .next (shifted (rolByte s.p.c s.a)) ∧ exec .rorAcc s = .next (shifted (rorByte s.p.c s.a)) ∧
    exec .incAcc s = .next { done (s.a + 1) s.p.c with a := s.a + 1 } ∧
    exec .decAcc s = .next { done (s.a - 1) s.p.c with a := s.a - 1 } ∧
    exec .inx s = .next { done (s.x + 1) s.p.c with x := s.x + 1 } ∧
    exec .iny s = .next { done (s.y + 1) s.p.c with y := s.y + 1 } ∧
    exec .dex s = .next { done (s.x - 1) s.p.c with x := s.x - 1 } ∧
    exec .dey s = .next { done (s.y - 1) s.p.c with y := s.y - 1 }

/-- R204, R220, R221: the memory forms of ASL, LSR, ROL, ROR, INC and DEC with their byte `v` readable and the write
accepted complete: one read, one write of the result, N and Z from it, C the bit shifted out (unchanged for INC and DEC),
one cycle more for a shift whose index crosses a page (R110), no register changed. It rests on: the table of base cycle
counts and the set of page cycles (decisions D5 and D6, assumption log 9, 10), and semantics the spec marks as general
knowledge (assumption log 28). -/
def Obligations.MemoryShiftAndStepResult : Prop :=
  ∀ (i : Instr) (m : AddrMode) (r : Resolved) (v w : Byte) (c : Bool) (extra : Nat) (s s1 s2 s3 : State),
    ((∃ f, (i.mnemonic = .asl ∧ f = aslByte ∨ i.mnemonic = .lsr ∧ f = lsrByte ∨ i.mnemonic = .rol ∧ f = rolByte ∨
          i.mnemonic = .ror ∧ f = rorByte) ∧
        w = (f s.p.c v).result ∧ c = (f s.p.c v).carry ∧ extra = if r.crossed then 1 else 0) ∨
      i.mnemonic = .inc ∧ w = v + 1 ∧ c = s.p.c ∧ extra = 0 ∨
      i.mnemonic = .dec ∧ w = v - 1 ∧ c = s.p.c ∧ extra = 0) →
    modeAddress i.mode = some m → resolve m s = .ok (r, s1) → memRead r.ea s1 = .ok (v, s2) →
    memWrite r.ea w s2 = .ok s3 →
    exec i s = .next { s with
      p := { s.p with n := decide (128 ≤ w.toNat), z := decide (w = 0), c := c }
      cp := s.cp + BitVec.ofNat 16 i.length
      cycleCount := s.cycleCount + BitVec.ofNat 64 (i.baseCycles + extra)
      regions := s3.regions
      mem := s3.mem }

/-! ## Compares, branches, jumps -/

/-- R243: CMP, CPX and CPY with their operand readable complete: C, Z and N from `reg - M` in 8 bits, V and the carry in
unused and V unchanged, no register and no memory byte written. It rests on: the table of base cycle counts and the set of
page cycles (decisions D5 and D6, assumption log 9, 10). -/
def Obligations.CompareResult : Prop :=
  ∀ (i : Instr) (reg : Byte) (src : Source) (o : Operand) (s s1 : State),
    (i.mnemonic = .cmp ∧ reg = s.a ∨ i.mnemonic = .cpx ∧ reg = s.x ∨ i.mnemonic = .cpy ∧ reg = s.y) →
    modeSource i.mode = some src → readSource src s = .ok (o, s1) →
    exec i s = .next { s1 with
      p := { s.p with
        c := decide (o.value.toNat ≤ reg.toNat)
        z := decide (reg = o.value)
        n := decide (128 ≤ (reg.toNat + 256 - o.value.toNat) % 256) }
      cp := s.cp + BitVec.ofNat 16 i.length
      cycleCount := s.cycleCount + BitVec.ofNat 64 (i.baseCycles + if o.crossed then 1 else 0) } ∧
    s1.mem = s.mem

/-- R250 to R259: the nine relative branches complete in every state: taken, CP is `cp0 + 2 + offset` modulo 65536 with one
cycle more, and a second one if the page of the target is not that of `cp0` (`BRANCH_PAGE_BASE` = opcode_address: the spec's
decision D7, assumption log 11); not taken, CP is `cp0 + 2`; nothing else changes. It rests on: which flag each branch tests
is general knowledge (assumption log 28), and the table of base cycle counts (decision D5, assumption log 9). -/
def Obligations.RelativeBranchResult : Prop :=
  ∀ (i : Instr) (rel8 : Byte) (taken : Bool) (s : State),
    (i = .bpl rel8 ∧ taken = !s.p.n ∨ i = .bmi rel8 ∧ taken = s.p.n ∨ i = .bvc rel8 ∧ taken = !s.p.v ∨
      i = .bvs rel8 ∧ taken = s.p.v ∨ i = .bcc rel8 ∧ taken = !s.p.c ∨ i = .bcs rel8 ∧ taken = s.p.c ∨
      i = .bne rel8 ∧ taken = !s.p.z ∨ i = .beq rel8 ∧ taken = s.p.z ∨ i = .bra rel8 ∧ taken = true) →
    let target := BitVec.ofInt 16 (s.cp.toNat + 2 + rel8.toInt)
    exec i s = .next { s with
      cp := if taken then target else s.cp + 2
      cycleCount := s.cycleCount + BitVec.ofNat 64
        (2 + if taken then (if s.cp.toNat / 256 = target.toNat / 256 then 1 else 2) else 0) }

/-- R260, R261: BBRn and BBSn with the zero-page byte readable complete: taken when its bit `n` is 0, or 1, to `cp0 + 3 +
offset` modulo 65536; nothing else changes. It rests on: semantics the spec marks as general knowledge (assumption log 28),
the base of the page test the spec's decision D7 (assumption log 11), and the table of base cycle counts (decision D5,
assumption log 9). -/
def Obligations.BitBranchResult : Prop :=
  ∀ (i : Instr) (n : Fin 8) (zp8 rel8 v : Byte) (taken : Bool) (s s1 : State),
    (i.mnemonic = .bbr n ∧ taken = !v.getLsbD n.val ∨ i.mnemonic = .bbs n ∧ taken = v.getLsbD n.val) →
    i.mode = .zprel zp8 rel8 → memRead (BitVec.ofNat 16 zp8.toNat) s = .ok (v, s1) →
    let target := BitVec.ofInt 16 (s.cp.toNat + 3 + rel8.toInt)
    exec i s = .next { s1 with
      cp := if taken then target else s.cp + 3
      cycleCount := s.cycleCount + BitVec.ofNat 64
        (5 + if taken then (if s.cp.toNat / 256 = target.toNat / 256 then 1 else 2) else 0) } ∧
    s1.mem = s.mem

/-- R280: the three forms of JMP, with the pointer readable, complete: CP is the effective address, no page cycle, nothing
else changes. It rests on: the table of base cycle counts (decision D5, assumption log 9), and the iax form is general
knowledge (assumption log 28). -/
def Obligations.JumpResult : Prop :=
  ∀ (i : Instr) (m : AddrMode) (r : Resolved) (s s1 : State), i.mnemonic = .jmp → modeAddress i.mode = some m →
    resolve m s = .ok (r, s1) →
    exec i s = .next { s1 with cp := r.ea, cycleCount := s.cycleCount + BitVec.ofNat 64 i.baseCycles } ∧ s1.mem = s.mem

/-- R281: JSR with its two stack bytes in RAM completes: `cp0 + 2` goes to the stack, high byte first at `0x0100 | SP`, low
byte below it with SP wrapping, SP is two less, CP is the operand, and nothing else changes. It rests on: the table of base
cycle counts (decision D5, assumption log 9). -/
def Obligations.JsrResult : Prop :=
  ∀ (lo hi : Byte) (s : State),
    let high := BitVec.ofNat 16 (256 + s.sp.toNat)
    let low := BitVec.ofNat 16 (256 + (s.sp.toNat + 255) % 256)
    let ret := (s.cp.toNat + 2) % 65536
    Memory.wf s.mem = true → IsRam s high → IsRam s low →
    ∃ t, exec (.jsr lo hi) s = .next t ∧
      t = { s with
        sp := BitVec.ofNat 8 (s.sp.toNat + 254)
        cp := BitVec.ofNat 16 (lo.toNat + 256 * hi.toNat)
        cycleCount := s.cycleCount + 6
        mem := t.mem } ∧
      peek t high = some (BitVec.ofNat 8 (ret / 256)) ∧ peek t low = some (BitVec.ofNat 8 (ret % 256)) ∧
      ∀ a, a ≠ high → a ≠ low → peek t a = peek s a

/-- R282: RTS with its two stack bytes in RAM or ROM completes: low byte first, CP is the pulled word plus one, SP is two
more, and nothing else changes. It rests on: the table of base cycle counts (decision D5, assumption log 9). -/
def Obligations.RtsResult : Prop :=
  ∀ (lo hi : Byte) (s : State),
    peek s (BitVec.ofNat 16 (256 + (s.sp.toNat + 1) % 256)) = some lo →
    peek s (BitVec.ofNat 16 (256 + (s.sp.toNat + 2) % 256)) = some hi →
    exec .rts s = .next { s with
      sp := BitVec.ofNat 8 (s.sp.toNat + 2)
      cp := BitVec.ofNat 16 (lo.toNat + 256 * hi.toNat + 1)
      cycleCount := s.cycleCount + 6 }

/-- R282: "`JSR addr; RTS` returns CP to the instruction after the JSR", with SP and every other register as before,
whatever SP was, and no byte changed but the two of the stack. It rests on: the table of base cycle counts (decision D5,
assumption log 9). -/
def Obligations.JsrThenRtsReturns : Prop :=
  ∀ (lo hi : Byte) (s : State), Memory.wf s.mem = true → IsRam s (stackAddr s.sp) → IsRam s (stackAddr (s.sp - 1)) →
    ∃ t u, exec (.jsr lo hi) s = .next t ∧ exec .rts t = .next u ∧
      u = { s with cp := s.cp + 3, cycleCount := s.cycleCount + 12, mem := u.mem } ∧
      ∀ a, a ≠ stackAddr s.sp → a ≠ stackAddr (s.sp - 1) → peek u a = peek s a

/-! ## The stack, BRK, RTI, flags -/

/-- R300: a push writes at `0x0100 | SP` and then decrements SP, a pull increments SP and then reads at `0x0100 | SP`, both
modulo 256, with no overflow error. -/
def Obligations.PushAndPullRule : Prop :=
  (∀ (v : Byte) (s s1 : State), memWrite (BitVec.ofNat 16 (256 + s.sp.toNat)) v s = .ok s1 →
    push v s = .ok { s1 with sp := BitVec.ofNat 8 (s.sp.toNat + 255) }) ∧
  (∀ (v : Byte) (s s1 : State),
    memRead (BitVec.ofNat 16 (256 + (s.sp.toNat + 1) % 256)) { s with sp := BitVec.ofNat 8 (s.sp.toNat + 1) } =
      .ok (v, s1) →
    pull s = .ok (v, s1) ∧ s1.sp = BitVec.ofNat 8 (s.sp.toNat + 1))

/-- R301, R303, R305, R307: PHA, PHX, PHY and PHP with their stack byte writable complete: the byte is written (for PHP the
status byte with bits 4 and 5 set, whatever B holds), SP is one less, no flag and nothing else changes. It rests on: the
table of base cycle counts (decision D5, assumption log 9), and PHX and PHY, semantics the spec marks as general knowledge
(assumption log 28). -/
def Obligations.PushResult : Prop :=
  ∀ (i : Instr) (v : Byte) (s s1 : State),
    (i = .pha ∧ v = s.a ∨ i = .phx ∧ v = s.x ∨ i = .phy ∧ v = s.y ∨ i = .php ∧ v = s.p.toByte ||| 0x30) →
    memWrite (BitVec.ofNat 16 (256 + s.sp.toNat)) v s = .ok s1 →
    exec i s = .next { s with
      sp := s.sp - 1
      cp := s.cp + 1
      cycleCount := s.cycleCount + 3
      regions := s1.regions
      mem := s1.mem }

/-- R302, R304, R306, R308: PLA, PLX, PLY and PLP with their stack byte readable complete: SP is one more; a register takes
the byte and N and Z come from it; PLP takes N, V, D, I, Z, C from the byte and keeps B (`PULL_B` = keep: the spec's
decision D10, assumption log 13); nothing else changes. It rests on: the table of base cycle counts (decision D5, assumption
log 9), and PLX and PLY, semantics the spec marks as general knowledge (assumption log 28). -/
def Obligations.PullResult : Prop :=
  ∀ (v : Byte) (s s1 : State),
    memRead (BitVec.ofNat 16 (256 + (s.sp.toNat + 1) % 256)) { s with sp := s.sp + 1 } = .ok (v, s1) →
    let done := { s with sp := s.sp + 1, cp := s.cp + 1, cycleCount := s.cycleCount + 4, regions := s1.regions }
    let nz := { s.p with n := decide (128 ≤ v.toNat), z := decide (v = 0) }
    exec .pla s = .next { done with a := v, p := nz } ∧
    exec .plx s = .next { done with x := v, p := nz } ∧
    exec .ply s = .next { done with y := v, p := nz } ∧
    exec .plp s = .next { done with
      p := { n := v.getLsbD 7, v := v.getLsbD 6, b := s.p.b, d := v.getLsbD 3, i := v.getLsbD 2, z := v.getLsbD 1,
             c := v.getLsbD 0 } }

/-- R309 to R318: the seven flag instructions write one flag each, NOP nothing; all complete in every state with CP one more
and two cycles. R317: STP completes with CP left on itself and three cycles (CP left unchanged is the spec's decision D16,
assumption log 15). It rests on: the table of base cycle counts (decision D5, assumption log 9), and which bit a flag
instruction writes is general knowledge (assumption log 28). -/
def Obligations.FlagNopAndStpResult : Prop :=
  ∀ s : State,
    let done := fun p : Status => { s with p := p, cp := s.cp + 1, cycleCount := s.cycleCount + 2 }
    exec .clc s = .next (done { s.p with c := false }) ∧ exec .sec s = .next (done { s.p with c := true }) ∧
    exec .cli s = .next (done { s.p with i := false }) ∧ exec .sei s = .next (done { s.p with i := true }) ∧
    exec .cld s = .next (done { s.p with d := false }) ∧ exec .sed s = .next (done { s.p with d := true }) ∧
    exec .clv s = .next (done { s.p with v := false }) ∧ exec .nop s = .next (done s.p) ∧
    exec .stp s = .next { s with cycleCount := s.cycleCount + 3 }

/-- R284, R360: BRK with its three stack bytes in RAM and the vector readable after the pushes completes: `cp0 + 2` high and
low, then P with bits 4 and 5 set, go to the stack with SP wrapping; I is set, D is cleared, SP is three less, CP is the
word at 0xFFFE; nothing else changes. It rests on: BRK is general knowledge and the spec's decisions D4 and D27 (assumption
log 14), and the table of base cycle counts (decision D5, assumption log 9). -/
def Obligations.BrkResult : Prop :=
  ∀ (lo hi : Byte) (s : State),
    let slot := fun k : Nat => BitVec.ofNat 16 (256 + (s.sp.toNat + 256 - k) % 256)
    let ret := (s.cp.toNat + 2) % 65536
    Memory.wf s.mem = true → IsRam s (slot 0) → IsRam s (slot 1) → IsRam s (slot 2) →
    peek s 0xFFFE = some lo → peek s 0xFFFF = some hi →
    ∃ t, exec .brk s = .next t ∧
      t = { s with
        sp := s.sp - 3
        p := { s.p with i := true, d := false }
        cp := BitVec.ofNat 16 (lo.toNat + 256 * hi.toNat)
        cycleCount := s.cycleCount + 7
        mem := t.mem } ∧
      peek t (slot 0) = some (BitVec.ofNat 8 (ret / 256)) ∧ peek t (slot 1) = some (BitVec.ofNat 8 (ret % 256)) ∧
      peek t (slot 2) = some (s.p.toByte ||| 0x30) ∧
      ∀ a, a ≠ slot 0 → a ≠ slot 1 → a ≠ slot 2 → peek t a = peek s a

/-- R283, R361: RTI with its three stack bytes in RAM or ROM completes: P from the first, B kept, then CP low and high with
no one added, SP three more, and nothing else changes. It rests on: RTI is general knowledge and the spec's decision D4,
keeping B the spec's decision D10 (assumption log 13, 14), and the table of base cycle counts (decision D5, assumption log
9). -/
def Obligations.RtiResult : Prop :=
  ∀ (w lo hi : Byte) (s : State),
    let slot := fun k : Nat => BitVec.ofNat 16 (256 + (s.sp.toNat + k) % 256)
    peek s (slot 1) = some w → peek s (slot 2) = some lo → peek s (slot 3) = some hi →
    exec .rti s = .next { s with
      sp := s.sp + 3
      p := { n := w.getLsbD 7, v := w.getLsbD 6, b := s.p.b, d := w.getLsbD 3, i := w.getLsbD 2, z := w.getLsbD 1,
             c := w.getLsbD 0 }
      cp := BitVec.ofNat 16 (lo.toNat + 256 * hi.toNat)
      cycleCount := s.cycleCount + 6 }

/-- R70, R71, R352: the 44 unassigned opcodes and 0xCB, the 45 rows that are not well-formed, stop with `UnknownOpcode` and
their opcode in every state (`NOP_SLOTS` empty and `WAI_POLICY` refuse: the spec's decisions D2, D3, assumption log 18). It
rests on: the opcode map is general knowledge (decision D1, assumption log 8). -/
def Obligations.UnassignedOpcodesStop : Prop :=
  ∀ (i : Instr) (s : State), ¬ WellFormed i → exec i s = .fault (.unknownOpcode i.opcode s.cp)

/-! ## Frames and completion -/

/-- R24: an instruction that answers changes no register but those the rule's table names for it. It rests on: semantics the
spec marks as general knowledge (assumption log 28). -/
def Obligations.RegisterFrame : Prop :=
  ∀ (i : Instr) (s t : State), exec i s = .next t →
    (i.mnemonic ∉ [.lda, .pla, .adc, .sbc, .and, .ora, .eor, .txa, .tya] → i.mode ≠ .acc → t.a = s.a) ∧
    (i.mnemonic ∉ [.ldx, .plx, .inx, .dex, .tax, .tsx] → t.x = s.x) ∧
    (i.mnemonic ∉ [.ldy, .ply, .iny, .dey, .tay] → t.y = s.y) ∧
    (i.mnemonic ∉ [.pha, .phx, .phy, .php, .pla, .plx, .ply, .plp, .jsr, .rts, .rti, .brk, .txs] → t.sp = s.sp)

/-- R14, R16: an instruction that answers changes no flag but those the rule's table names for it, and none changes B. It
rests on: PLP and RTI keep B by the spec's decision D10 (assumption log 13), BIT immediate writes Z alone by the spec's
decision D9 (assumption log 12), and semantics the spec marks as general knowledge (assumption log 28). -/
def Obligations.FlagFrame : Prop :=
  ∀ (i : Instr) (s t : State), exec i s = .next t →
    let results : List Mnemonic :=
      [.lda, .ldx, .ldy, .tax, .tay, .txa, .tya, .tsx, .pla, .plx, .ply, .adc, .sbc, .and, .ora, .eor, .asl, .lsr, .rol,
       .ror, .inc, .dec, .inx, .iny, .dex, .dey, .cmp, .cpx, .cpy, .plp, .rti]
    (i.mnemonic ∉ results → i.mnemonic ≠ .bit ∨ i.mode.tag = .imm → t.p.n = s.p.n) ∧
    (i.mnemonic ∉ results → i.mnemonic ∉ [.bit, .tsb, .trb] → t.p.z = s.p.z) ∧
    (i.mnemonic ∉ [.adc, .sbc, .clv, .plp, .rti] → i.mnemonic ≠ .bit ∨ i.mode.tag = .imm → t.p.v = s.p.v) ∧
    (i.mnemonic ∉ [.sed, .cld, .brk, .plp, .rti] → t.p.d = s.p.d) ∧
    (i.mnemonic ∉ [.sei, .cli, .brk, .plp, .rti] → t.p.i = s.p.i) ∧
    (i.mnemonic ∉ [.adc, .sbc, .asl, .lsr, .rol, .ror, .cmp, .cpx, .cpy, .sec, .clc, .plp, .rti] → t.p.c = s.p.c) ∧
    t.p.b = s.p.b

/-- R108, R300, R351: an instruction that answers changes no byte of RAM or ROM but the ones it stores: the byte at the
address its operand resolves to for a store or a read-modify-write form, the stack bytes at `0x0100 | SP` and below for the
pushes, JSR and BRK, and none at all for every other form. It rests on: semantics the spec marks as general knowledge
(assumption log 28). -/
def Obligations.MemoryFrame : Prop :=
  ∀ (i : Instr) (s t : State), exec i s = .next t →
    let storing : Prop := i.mnemonic ∈ [.sta, .stx, .sty, .stz, .asl, .lsr, .rol, .ror, .inc, .dec, .tsb, .trb] ∨
      ∃ n, i.mnemonic = .rmb n ∨ i.mnemonic = .smb n
    (∀ (m : AddrMode) (r : Resolved) (s1 : State), storing → i.mode = .mem m → resolve m s = .ok (r, s1) →
      ∀ a, a ≠ r.ea → peek t a = peek s a) ∧
    (i.mnemonic ∈ [.pha, .phx, .phy, .php] → ∀ a, a ≠ stackAddr s.sp → peek t a = peek s a) ∧
    (i.mnemonic = .jsr → ∀ a, a ≠ stackAddr s.sp → a ≠ stackAddr (s.sp - 1) → peek t a = peek s a) ∧
    (i.mnemonic = .brk →
      ∀ a, a ≠ stackAddr s.sp → a ≠ stackAddr (s.sp - 1) → a ≠ stackAddr (s.sp - 2) → peek t a = peek s a) ∧
    (¬ (storing ∧ i.mode ≠ .acc) → i.mnemonic ∉ [.pha, .phx, .phy, .php, .jsr, .brk] → ∀ a, peek t a = peek s a)

/-- R400, R351: every assigned instruction, all 211, with any operand bytes, completes where every address is RAM; one that
writes no memory completes wherever every address is mapped, or stops with the own error of a peripheral that is there
(assumption log 6), and surely completes where no subsystem is a peripheral. It rests on: the opcode map is general
knowledge (decision D1, assumption log 8). -/
def Obligations.EveryAssignedInstructionCompletes : Prop :=
  ∀ (i : Instr) (s : State), WellFormed i →
    (AllRam s → ∃ t, exec i s = .next t) ∧
    (Covered s →
      i.mnemonic ∉ [.sta, .stx, .sty, .stz, .tsb, .trb, .pha, .phx, .phy, .php, .jsr, .brk] →
      (i.mnemonic ∈ [.asl, .lsr, .rol, .ror, .inc, .dec] → i.mode = .acc) →
      (∀ n, i.mnemonic ≠ .rmb n ∧ i.mnemonic ≠ .smb n) →
      (NoPeripheral s → ∃ t, exec i s = .next t) ∧
      ((∃ t, exec i s = .next t) ∨ ∃ k a, exec i s = .fault (.peripheralError k a) ∧ IsPeripheral s a))

/-! ## Whole-machine rules -/

/-- The invariant holds at reset. It rests on: the canonical form of the store is the model's own (assumption log 1). -/
def Obligations.InvariantAtReset : Prop := SoundState State.reset

/-- R22, R31: every step keeps the invariant: ranges that fit and are pairwise disjoint, the store in canonical form (the
model's own, assumption log 1), and no stored byte outside RAM and ROM. -/
def Obligations.StepKeepsInvariant : Prop := ∀ s t : State, SoundState s → step s = .next t → SoundState t

/-- R22: every state that resets, host operations (R390 to R398) and successful steps lead to satisfies the invariant. It
rests on: the preconditions of attach are the spec's decision D21 (assumption log 23), the canonical form the model's own
(assumption log 1). -/
def Obligations.ReachableStatesSatisfyInvariant : Prop := ∀ s : State, Reachable s → SoundState s

/-- R17, R112: a step that answers adds between 2 and 7 cycles, so that `cycle_count` strictly grows while it does not pass
2^64 - 1 (the wrap is the model's choice, assumption log 3). It rests on: the table of base cycle counts and the set of page
cycles (decisions D5 and D6, assumption log 9, 10). -/
def Obligations.CycleCountGrowsByTwoToSeven : Prop :=
  ∀ s t : State, step s = .next t →
    ∃ n : Nat, 2 ≤ n ∧ n ≤ 7 ∧ t.cycleCount = s.cycleCount + BitVec.ofNat 64 n ∧
      (s.cycleCount.toNat + 7 < 2 ^ 64 → s.cycleCount.toNat < t.cycleCount.toNat)

/-- R371: CP is left unchanged by STP always, and else only by a control transfer whose target is the instruction itself;
the outcome's terminal flag is set exactly then (`TERMINAL_RULE` = stp_or_cp_unchanged: the spec's decision D15, assumption
log 16). It rests on: STP leaving CP is the spec's decision D16 (assumption log 15), the three cycles of a branch to itself
at the end of a page the spec's decision D7 (`BRANCH_PAGE_BASE` = opcode_address, assumption log 11), and the table of base
cycle counts (decision D5, assumption log 9). -/
def Obligations.TerminalFlagOnlyWithoutProgress : Prop :=
  (∀ (i : Instr) (s t : State), exec i s = .next t → t.cp = s.cp →
    i.mnemonic ∈ [.stp, .jmp, .jsr, .rts, .rti, .brk, .bpl, .bmi, .bvc, .bvs, .bcc, .bcs, .bne, .beq, .bra] ∨
      ∃ n, i.mnemonic = .bbr n ∨ i.mnemonic = .bbs n) ∧
  (∀ s : State, exec .stp s = .next { s with cycleCount := s.cycleCount + 3 } ∧
    exec (.bra 0xFE) s = .next { s with cycleCount := s.cycleCount + 3 }) ∧
  (∀ (s t : State) (o : StepOutcome), report s = .success o t →
    step s = .next t ∧ o.address = s.cp ∧ (o.terminal = true ↔ o.instr = .stp ∨ t.cp = s.cp) ∧
    t.cycleCount = s.cycleCount + BitVec.ofNat 64 o.consumed)

/-- R351, R353, by the columns of R351. A step never refuses. Its error is `UnmappedAddress` of an unmapped address,
`WriteToReadOnly` of a ROM address, `UnknownOpcode` of the unassigned opcode byte at CP, or the own error of a peripheral at
an address of one; never `OverlappingSubsystem` or `CrossBoundaryRead`. After the fetch, `UnknownOpcode` comes only from a
row that is no instruction, `WriteToReadOnly` only from the instructions that write memory, and `UnmappedAddress` and a
peripheral's error only from those with a memory operand, a pointer read, a push, a pull or a vector read. It rests on: that
an access to a peripheral can raise an error of the device, under a separate name, is assumption log 6 and 32. -/
def Obligations.StepErrorKinds : Prop :=
  (∀ (s : State) (f : Fault), step s = .fault f →
    (∃ a, f = .unmappedAddress a ∧ lookup s.regions a = none) ∨ (∃ a, f = .writeToReadOnly a ∧ IsRom s a) ∨
      (∃ op s1, f = .unknownOpcode op s.cp ∧ memRead s.cp s = .ok (op, s1) ∧ (decodeOp op 0 0).assigned = false) ∨
      ∃ k a, f = .peripheralError k a ∧ IsPeripheral s a) ∧
  (∀ (s : State) (r : Refusal), step s ≠ .refused r) ∧
  (∀ (i : Instr) (s : State) (op : Byte) (a : Addr), exec i s = .fault (.unknownOpcode op a) → ¬ WellFormed i) ∧
  (∀ (i : Instr) (s : State) (a : Addr), exec i s = .fault (.writeToReadOnly a) →
    i.mnemonic ∈ [.sta, .stx, .sty, .stz, .asl, .lsr, .rol, .ror, .inc, .dec, .tsb, .trb, .pha, .phx, .phy, .php, .jsr,
      .brk] ∨ ∃ n, i.mnemonic = .rmb n ∨ i.mnemonic = .smb n) ∧
  (∀ (i : Instr) (s : State) (k : ErrorKind) (a : Addr),
    exec i s = .fault (.unmappedAddress a) ∨ exec i s = .fault (.peripheralError k a) →
    i.mnemonic ∈ [.pha, .phx, .phy, .php, .pla, .plx, .ply, .plp, .jsr, .rts, .brk, .rti] ∨
      (∃ m, i.mode = .mem m ∧ (i.mnemonic = .jmp → m.tag ≠ .abs)) ∨ ∃ zp8 rel8, i.mode = .zprel zp8 rel8)

/-- R17, R16, R362: no instruction's effect depends on `cycle_count` or on the stored B, and none but PHP and BRK, which
push it, on I: from two states that differ in that piece alone, an instruction that answers answers states that differ in it
at most. It rests on: the claim compares two runs and is relative to the choice of the model that a peripheral answers by
functions of the private state, the offset and the byte written (R36, decision D19, assumption log 5), the sums of cycles
are modulo 2^64 for every count (R17, decision D17, assumption log 3), the absence of interrupts is the spec's decision D24,
and keeping B D10 (assumption log 13, 26). -/
def Obligations.CycleCountBreakAndInterruptFlagsAreInert : Prop :=
  ∀ (i : Instr) (s t : State), exec i s = .next t →
    (∀ n : BitVec 64, exec i { s with cycleCount := n } =
      .next { t with cycleCount := n + (t.cycleCount - s.cycleCount) }) ∧
    (∀ b : Bool, exec i { s with p := { s.p with b := b } } = .next { t with p := { t.p with b := b } }) ∧
    (∀ f : Bool, i.mnemonic ∉ [.php, .brk] →
      ∃ g, exec i { s with p := { s.p with i := f } } = .next { t with p := { t.p with i := g } })

/-! ## The host's operations -/

/-- R396, R393: `registers set` puts a value that fits into the named field alone, a status value with bit 5 ignored, and
rejects one that does not fit with nothing changed; `run init` takes CP, and nothing else, from the word at 0xFFFC; `run`
with an address sets CP alone. It rests on: the bits of a status write are the spec's decision D26 (assumption log 31), the
rejection of a wide CP the spec's inference (assumption log 30). -/
def Obligations.HostRegisterOperations : Prop :=
  (∀ (s : State) (v : Nat),
    (v < 256 → setField .a v s = .done { s with a := BitVec.ofNat 8 v } ∧
      setField .x v s = .done { s with x := BitVec.ofNat 8 v } ∧
      setField .y v s = .done { s with y := BitVec.ofNat 8 v } ∧
      setField .sp v s = .done { s with sp := BitVec.ofNat 8 v } ∧
      ∃ p, setField .status v s = .done { s with p := p } ∧ p.toByte = BitVec.ofNat 8 v ||| 0x20) ∧
    (v < 65536 → setField .cp v s = .done { s with cp := BitVec.ofNat 16 v }) ∧
    (256 ≤ v → ∀ f, f ≠ .cp → setField f v s = .failed .rejected s) ∧
    (65536 ≤ v → setField .cp v s = .failed .rejected s)) ∧
  (∀ (s : State) (lo hi : Byte), peek s 0xFFFC = some lo → peek s 0xFFFD = some hi →
    runInit s = .done { s with cp := BitVec.ofNat 16 (lo.toNat + 256 * hi.toNat) }) ∧
  (∀ (s : State) (a : Addr), runAt a s = { s with cp := a })

/-- R392. `memory fill start~end value?` over RAM writes the value, 0x00 if none is given, to the `((end - start) mod 65536)
+ 1` addresses from `start` on, modulo 65536. `memory write` past 0xFFFF fails and changes nothing; else over RAM it
succeeds. Where a write succeeds, byte `i` stands at `addr + i` if that is RAM, and in both verbs no register and no other
byte of RAM or ROM changes. R39: the first byte whose write fails, after any number that succeeded, ends either verb with
its error and the state its write leaves, in which the bytes before it stay written, no other byte has changed, and a
peripheral that saw a write, the failing one too, may have moved (assumption log 21). It rests on: the overflow of a write
is the spec's decision D28. -/
def Obligations.HostMemoryWrites : Prop :=
  (∀ (s : State) (start last : Addr) (value : Option Byte),
    let inRange := fun a : Addr => (a.toNat + 65536 - start.toNat) % 65536 < (last.toNat + 65536 - start.toNat) % 65536 + 1
    Memory.wf s.mem = true → (∀ a, inRange a → IsRam s a) →
    ∃ t, memoryFill start last value s = .done t ∧ t = { s with mem := t.mem } ∧
      ∀ a : Addr, peek t a = if inRange a then some (value.getD 0x00) else peek s a) ∧
  (∀ (s : State) (addr : Addr) (bytes : List Byte), 65536 < addr.toNat + bytes.length →
    memoryWrite addr bytes s = .failed .memoryOverflow s) ∧
  (∀ (s : State) (addr : Addr) (bytes : List Byte), addr.toNat + bytes.length ≤ 65536 →
    (∀ k, k < bytes.length → IsRam s (addr + BitVec.ofNat 16 k)) →
    ∃ t, memoryWrite addr bytes s = .done t ∧ t = { s with mem := t.mem }) ∧
  (∀ (s t : State) (addr : Addr) (bytes : List Byte), Memory.wf s.mem = true → memoryWrite addr bytes s = .done t →
    t = { s with regions := t.regions, mem := t.mem } ∧ fabricMap t = fabricMap s ∧
    (∀ k b, bytes[k]? = some b → IsRam s (addr + BitVec.ofNat 16 k) → peek t (addr + BitVec.ofNat 16 k) = some b) ∧
    ∀ a, (∀ k, k < bytes.length → a ≠ addr + BitVec.ofNat 16 k) → peek t a = peek s a) ∧
  (∀ (s u t : State) (addr : Addr) (pre rest : List Byte) (b : Byte) (f : Fault),
    addr.toNat + pre.length + rest.length < 65536 → memoryWrite addr pre s = .done u →
    fabricWrite (addr + BitVec.ofNat 16 pre.length) b u = (some f, t) →
    memoryWrite addr (pre ++ b :: rest) s = .failed (.fabric f) t ∧ SameButPeripherals u t ∧
    (Memory.wf s.mem = true →
      ∀ k c, pre[k]? = some c → IsRam s (addr + BitVec.ofNat 16 k) → peek t (addr + BitVec.ofNat 16 k) = some c) ∧
    ∀ a, (∀ k, k < pre.length → a ≠ addr + BitVec.ofNat 16 k) → peek t a = peek s a) ∧
  (∀ (s u t : State) (start last : Addr) (value : Option Byte) (k : Nat) (f : Fault),
    k ≤ (last.toNat + 65536 - start.toNat) % 65536 →
    (k = 0 ∧ u = s ∨ 1 ≤ k ∧ memoryFill start (start + BitVec.ofNat 16 (k - 1)) value s = .done u) →
    fabricWrite (start + BitVec.ofNat 16 k) (value.getD 0x00) u = (some f, t) →
    memoryFill start last value s = .failed (.fabric f) t ∧ SameButPeripherals u t ∧
    (Memory.wf s.mem = true →
      ∀ j, j < k → IsRam s (start + BitVec.ofNat 16 j) → peek t (start + BitVec.ofNat 16 j) = some (value.getD 0x00)) ∧
    ∀ a, (∀ j, j < k → a ≠ start + BitVec.ofNat 16 j) → peek t a = peek s a)

/-- R40: a slice read that meets an unmapped address fails with nothing changed, `UnmappedAddress` if it is the first and
`CrossBoundaryRead` if it is a later one. One that meets none changes no register and no byte of RAM or ROM, and answers the
bytes at `addr + i` modulo 65536 in order, or the own error of a peripheral that is there (assumption log 6); over RAM and
ROM it answers. R41: a slice write that succeeds is one write after another, in increasing `i` at `addr + i` modulo 65536,
and over RAM it does succeed. One that meets an unmapped address fails with the same two errors, whatever its other bytes
would do (the precedence is the model's choice, assumption log 22); else with the error of the first byte whose write fails.
After a failure no register, no byte of ROM and nothing outside the range has changed; of the RAM bytes and the peripherals
of the range nothing is said (free values, assumption log 22). Which error a later byte gives, and that the wrap counts as
contiguous, are the spec's decision D20. -/
def Obligations.SliceReadsAndWrites : Prop :=
  (∀ (addr : Addr) (n : Nat) (s : State),
    (1 ≤ n → lookup s.regions addr = none → readSlice addr n s = (.error (.unmappedAddress addr), s)) ∧
    (lookup s.regions addr ≠ none → (∃ k, 1 ≤ k ∧ k < n ∧ lookup s.regions (addr + BitVec.ofNat 16 k) = none) →
      readSlice addr n s = (.error (.crossBoundaryRead addr n), s)) ∧
    ((∀ k, k < n → lookup s.regions (addr + BitVec.ofNat 16 k) ≠ none) →
      ∃ r t, readSlice addr n s = (r, t) ∧ SameButPeripherals s t ∧
        (∀ bytes, r = .ok bytes → bytes.length = n ∧
          ∀ k b, k < n → peek s (addr + BitVec.ofNat 16 k) = some b → bytes[k]? = some b) ∧
        (∀ f, r = .error f → ∃ k a, f = .peripheralError k a ∧ IsPeripheral s a) ∧
        ((∀ k, k < n → peek s (addr + BitVec.ofNat 16 k) ≠ none) → ∃ bytes, r = .ok bytes ∧ t = s))) ∧
  (∀ (addr : Addr) (s : State), writeSlice addr [] s = .done s) ∧
  (∀ (addr : Addr) (b : Byte) (rest : List Byte) (s t : State), writeSlice addr (b :: rest) s = .done t ↔
    ∃ u, fabricWrite addr b s = (none, u) ∧ writeSlice (addr + 1) rest u = .done t) ∧
  (∀ (addr : Addr) (bytes : List Byte) (s : State), (∀ k, k < bytes.length → IsRam s (addr + BitVec.ofNat 16 k)) →
    ∃ t, writeSlice addr bytes s = .done t) ∧
  (∀ (addr : Addr) (bytes : List Byte) (s : State),
    (1 ≤ bytes.length → lookup s.regions addr = none →
      ∃ t, writeSlice addr bytes s = .failed (.fabric (.unmappedAddress addr)) t) ∧
    (lookup s.regions addr ≠ none →
      (∃ k, 1 ≤ k ∧ k < bytes.length ∧ lookup s.regions (addr + BitVec.ofNat 16 k) = none) →
      ∃ t, writeSlice addr bytes s = .failed (.fabric (.crossBoundaryRead addr bytes.length)) t)) ∧
  (∀ (addr : Addr) (pre rest : List Byte) (b : Byte) (s u v : State) (f : Fault),
    (∀ k, k < pre.length + 1 + rest.length → lookup s.regions (addr + BitVec.ofNat 16 k) ≠ none) →
    writeSlice addr pre s = .done u → fabricWrite (addr + BitVec.ofNat 16 pre.length) b u = (some f, v) →
    ∃ t, writeSlice addr (pre ++ b :: rest) s = .failed (.fabric f) t) ∧
  (∀ (addr : Addr) (bytes : List Byte) (s t : State) (e : VerbError), writeSlice addr bytes s = .failed e t →
    t = { s with regions := t.regions, mem := t.mem } ∧ fabricMap t = fabricMap s ∧
    (∀ a, IsRom s a ∨ (∀ k, k < bytes.length → a ≠ addr + BitVec.ofNat 16 k) → peek t a = peek s a) ∧
    ∀ r ∈ s.regions, (∀ k, k < bytes.length → r.holds (addr + BitVec.ofNat 16 k) = false) → r ∈ t.regions)

/-- R394, R372: `run` without a stop clause is one step, whatever it answers. An iteration of a loop ends it at a terminal
step, by `StpHalted` if it was STP and by `NoProgress` if not, before the predicate is asked; at an error of the step or of
the predicate's reads, with that error; and at the predicate's answer that stops. Else the loop goes on from the state the
predicate's reads leave, with one step less to go. The predicate changes no register and no byte of RAM or ROM (R397).
`RUN_GUARD` = always is the spec's decision D15 (assumption log 17), the bound on the steps the model's (assumption log 25).
-/
def Obligations.RunEndsAtTerminalStepOrError : Prop :=
  (∀ (s t : State) (c : Condition) (fuel : Nat),
    (step s = .next t → run fuel .absent s = .stepped t) ∧
    (∀ f, step s = .fault f → run fuel .absent s = .error f ∧ run (fuel + 1) (.untilCond c) s = .error f ∧
      run (fuel + 1) (.whileCond c) s = .error f) ∧
    (∀ o, report s = .success o t → o.terminal = true →
      (o.instr = .stp → run (fuel + 1) (.untilCond c) s = .stpHalted t ∧ run (fuel + 1) (.whileCond c) s = .stpHalted t) ∧
      (o.instr ≠ .stp → run (fuel + 1) (.untilCond c) s = .noProgress t ∧
        run (fuel + 1) (.whileCond c) s = .noProgress t)) ∧
    (∀ o, report s = .success o t → o.terminal = false →
      (∀ u, c.eval t = (.ok true, u) →
        run (fuel + 1) (.untilCond c) s = .stopped u ∧ run (fuel + 1) (.whileCond c) s = run fuel (.whileCond c) u) ∧
      (∀ u, c.eval t = (.ok false, u) →
        run (fuel + 1) (.untilCond c) s = run fuel (.untilCond c) u ∧ run (fuel + 1) (.whileCond c) s = .stopped u) ∧
      (∀ f u, c.eval t = (.error f, u) →
        run (fuel + 1) (.untilCond c) s = .predicateError f u ∧ run (fuel + 1) (.whileCond c) s = .predicateError f u))) ∧
  (∀ (c : Condition) (s : State), SameButPeripherals s (c.eval s).2)
end

