-- ==== Sys2Proof/Laws/Bits.lean ====
section
/-! SUPPORT. Addresses, pages and flags as numbers: what the byte helpers compute, said with `toNat`. -/

namespace Sys2Proof.Machine

theorem word_toNat (lo hi : Byte) : (word lo hi).toNat = lo.toNat + 256 * hi.toNat := by
  have := lo.isLt
  simp only [word, BitVec.toNat_append]
  rw [← Nat.shiftLeft_add_eq_or_of_lt (by omega), Nat.shiftLeft_eq]
  omega

theorem word_eq (lo hi : Byte) : word lo hi = BitVec.ofNat 16 (lo.toNat + 256 * hi.toNat) := by
  apply BitVec.eq_of_toNat_eq
  have := lo.isLt
  have := hi.isLt
  rw [word_toNat, BitVec.toNat_ofNat]
  omega

theorem zext16_eq (b : Byte) : zext16 b = BitVec.ofNat 16 b.toNat := by
  apply BitVec.eq_of_toNat_eq
  simp [zext16]

theorem zext16_add (b i : Byte) : zext16 (b + i) = BitVec.ofNat 16 ((b.toNat + i.toNat) % 256) := by
  rw [zext16_eq]; simp

theorem word_add (lo hi i : Byte) :
    word lo hi + zext16 i = BitVec.ofNat 16 ((lo.toNat + 256 * hi.toNat + i.toNat) % 65536) := by
  apply BitVec.eq_of_toNat_eq
  rw [BitVec.toNat_add, word_toNat]
  simp [zext16]

theorem page_toNat (w : Addr) : (page w).toNat = w.toNat / 256 := by
  have := w.isLt
  simp only [page, highByte, BitVec.toNat_setWidth, BitVec.toNat_ushiftRight, Nat.shiftRight_eq_div_pow]
  omega

theorem crosses_eq (w v : Addr) : crosses w v = decide (w.toNat / 256 ≠ v.toNat / 256) := by
  unfold crosses
  simp only [← page_toNat, ne_eq, ← BitVec.toNat_eq]

/-- The stack page (10_state.md R11). -/
theorem stackAddr_eq (sp : Byte) : stackAddr sp = BitVec.ofNat 16 (256 + sp.toNat) := by
  rw [stackAddr, word_eq, Nat.add_comm]; rfl

theorem stackAddr_toNat (sp : Byte) : (stackAddr sp).toNat = 256 + sp.toNat := by
  rw [stackAddr, word_toNat, Nat.add_comm]; rfl

theorem highByte_toNat (w : Addr) : (highByte w).toNat = w.toNat / 256 := page_toNat w

theorem lowByte_toNat (w : Addr) : (lowByte w).toNat = w.toNat % 256 := by
  simp [lowByte]

/-- A word put together from its own bytes. -/
theorem word_lowByte_highByte (w : Addr) : word (lowByte w) (highByte w) = w := by
  apply BitVec.eq_of_toNat_eq
  rw [word_toNat, lowByte_toNat, highByte_toNat]
  omega

/-- N is bit 7: the value is 128 or more. -/
theorem getLsbD_seven (v : Byte) : v.getLsbD 7 = decide (128 ≤ v.toNat) := by
  rw [show v.getLsbD 7 = v.msb by simp [BitVec.msb, BitVec.getMsbD], BitVec.msb_eq_decide]

theorem Status.setNZ_eq (v : Byte) (p : Status) :
    Status.setNZ v p = { p with n := decide (128 ≤ v.toNat), z := decide (v = 0) } := by
  rw [Status.setNZ, getLsbD_seven]

theorem Status.setShift_eq (r : ShiftResult) (p : Status) :
    Status.setShift r p = { p with n := decide (128 ≤ r.result.toNat), z := decide (r.result = 0), c := r.carry } := by
  rw [Status.setShift, Status.setNZ_eq]

theorem Status.compare_eq (reg m : Byte) (p : Status) :
    Status.compare reg m p =
      { p with c := decide (m.toNat ≤ reg.toNat), z := decide (reg = m), n := decide (128 ≤ (reg - m).toNat) } := by
  rw [Status.compare, getLsbD_seven]

/-- P as a byte reads 1 in bit 5, whatever it holds (10_state.md R15). -/
theorem Status.toByte_bit_five (p : Status) : p.toByte.getLsbD 5 = true := by
  obtain ⟨n, v, b, d, i, z, c⟩ := p
  revert n v b d i z c
  decide

/-- The stored flags survive the byte form. -/
theorem Status.ofByte_toByte (p : Status) : Status.ofByte p.toByte = p := by
  obtain ⟨n, v, b, d, i, z, c⟩ := p
  revert n v b d i z c
  decide

end Sys2Proof.Machine
end

