-- ==== Sys2Proof/Laws/Decode.lean ====
section
/-! SUPPORT. The opcode map read both ways: what the row of an instruction says of the instructions its opcode byte decodes
to, and that every opcode byte is some instruction's. -/

namespace Sys2Proof

/-- A mode with its operand bytes replaced. -/
def Mode.withBytes (b1 b2 : Byte) : Mode → Mode
  | .imp => .imp
  | .acc => .acc
  | .imm _ => .imm b1
  | .mem (.zp _) => .mem (.zp b1)
  | .mem (.zpx _) => .mem (.zpx b1)
  | .mem (.zpy _) => .mem (.zpy b1)
  | .mem (.abs _ _) => .mem (.abs b1 b2)
  | .mem (.absx _ _) => .mem (.absx b1 b2)
  | .mem (.absy _ _) => .mem (.absy b1 b2)
  | .mem (.ind _ _) => .mem (.ind b1 b2)
  | .mem (.izx _) => .mem (.izx b1)
  | .mem (.izy _) => .mem (.izy b1)
  | .mem (.izp _) => .mem (.izp b1)
  | .mem (.iax _ _) => .mem (.iax b1 b2)
  | .rel _ => .rel b1
  | .zprel _ _ => .zprel b1 b2
  | .illegal => .illegal

theorem Mode.withBytes_tag (b1 b2 : Byte) (m : Mode) : (m.withBytes b1 b2).tag = m.tag := by
  cases m with
  | mem a => cases a <;> rfl
  | imp | acc | imm | rel | zprel | illegal => rfl

theorem Mode.withBytes_bytes (b1 b2 : Byte) (m : Mode) : (m.withBytes b1 b2).bytes = [b1, b2].take (m.tag.length - 1) := by
  cases m with
  | mem a => cases a <;> rfl
  | imp | acc | imm | rel | zprel | illegal => rfl

/-- What decodes from an instruction's opcode byte has that instruction's row, with the operand bytes given. -/
theorem decodeOp_row (i : Instr) (b1 b2 : Byte) :
    (decodeOp i.opcode b1 b2).row = { i.row with mode := i.mode.withBytes b1 b2 } := by
  cases i <;> (conv => lhs; arg 1; arg 1; simp only [Instr.opcode, Instr.row]) <;> rfl

/-- An assigned row is one whose mode is not the table's `illegal`. -/
theorem Instr.assigned_eq (i : Instr) : i.assigned = decide (i.mode.tag ≠ .illegal) := by
  cases i <;> rfl

theorem decodeOp_opcode (i : Instr) (b1 b2 : Byte) :
    (decodeOp i.opcode b1 b2).opcode = i.opcode ∧ (decodeOp i.opcode b1 b2).mnemonic = i.mnemonic ∧
      (decodeOp i.opcode b1 b2).mode.tag = i.mode.tag ∧ (decodeOp i.opcode b1 b2).baseCycles = i.baseCycles ∧
      (decodeOp i.opcode b1 b2).mode.bytes = [b1, b2].take (i.length - 1) ∧
      (decodeOp i.opcode b1 b2).assigned = i.assigned := by
  have h := decodeOp_row i b1 b2
  have hm : (decodeOp i.opcode b1 b2).mode = i.mode.withBytes b1 b2 := by rw [Instr.mode, h]
  refine ⟨?_, ?_, ?_, ?_, ?_, ?_⟩
  · rw [Instr.opcode, h]; rfl
  · rw [Instr.mnemonic, h]; rfl
  · rw [hm, Mode.withBytes_tag]
  · rw [Instr.baseCycles, h]; rfl
  · rw [hm, Mode.withBytes_bytes]; rfl
  · rw [Instr.assigned_eq, Instr.assigned_eq, hm, Mode.withBytes_tag]

/-- The operand bytes of a mode fill its length. -/
theorem Mode.bytes_length (m : Mode) : m.bytes.length + 1 = m.tag.length := by
  cases m with
  | mem a => cases a <;> rfl
  | imp => rfl
  | acc => rfl
  | imm _ => rfl
  | rel _ => rfl
  | zprel _ _ => rfl
  | illegal => rfl

theorem encode_length (i : Instr) : (encode i).length = i.length := Mode.bytes_length i.mode

/-- The length an opcode byte decides is that of the instruction. -/
theorem opcodeLength_opcode (i : Instr) : opcodeLength i.opcode = i.length := by
  unfold opcodeLength Instr.length
  rw [(decodeOp_opcode i 0 0).2.2.1]

/-- A length is 1, 2 or 3 (R61). -/
theorem ModeTag.length_bounds (t : ModeTag) : 1 ≤ t.length ∧ t.length ≤ 3 := by cases t <;> decide

theorem Instr.length_bounds (i : Instr) : 1 ≤ i.length ∧ i.length ≤ 3 := ModeTag.length_bounds _

/-- Every opcode byte is the opcode of the instruction it decodes to. -/
theorem opcode_decodeOp_zero : ∀ op : Byte, (decodeOp op 0 0).opcode = op := by decide

end Sys2Proof
end

