-- ==== Sys2Proof/Laws/Memory.lean ====
section
/-! SUPPORT. The store of RAM and ROM bytes: reading after writing, and the canonical form, which every operation keeps. -/

namespace Sys2Proof.Machine

@[simp] theorem Memory.read_nil (a : Nat) : Memory.read [] a = Memory.unlisted := rfl

@[simp] theorem Memory.wf_nil : Memory.wf [] = true := rfl

theorem Memory.above_iff {a : Nat} {m : Memory} : Memory.above a m = true ↔ ∀ c ∈ m, a < c.1 := by
  simp [Memory.above]

theorem Memory.wf_cons {k : Nat} {b : Byte} {m : Memory} :
    Memory.wf ((k, b) :: m) = true ↔ k < 65536 ∧ b ≠ Memory.unlisted ∧ (∀ c ∈ m, k < c.1) ∧ Memory.wf m = true := by
  simp [Memory.wf, Memory.above_iff, and_assoc]

/-- An address below every listed one is not listed. -/
theorem Memory.read_of_above {a : Nat} {m : Memory} (h : ∀ c ∈ m, a < c.1) : Memory.read m a = Memory.unlisted := by
  induction m with
  | nil => rfl
  | cons c rest ih =>
    obtain ⟨k, b⟩ := c
    have hk : a < k := h (k, b) (by simp)
    have hne : k ≠ a := by omega
    simp only [Memory.read, if_neg hne]
    exact ih fun c hc => h c (by simp [hc])

/-- A write lists no address but the one written and those listed before. -/
theorem Memory.mem_write {m : Memory} {a : Nat} {v : Byte} {c : Host.Cell} (h : c ∈ Memory.write m a v) :
    c.1 = a ∨ c ∈ m := by
  induction m with
  | nil =>
    simp only [Memory.write] at h
    split at h <;> simp_all
  | cons d rest ih =>
    obtain ⟨k, b⟩ := d
    simp only [Memory.write] at h
    split at h
    · split at h
      · exact .inr h
      · rcases List.mem_cons.1 h with rfl | h
        · exact .inl rfl
        · exact .inr h
    · split at h
      · split at h
        · exact .inr (List.mem_cons_of_mem _ h)
        · rcases List.mem_cons.1 h with rfl | h
          · exact .inl (by simp_all)
          · exact .inr (List.mem_cons_of_mem _ h)
      · rcases List.mem_cons.1 h with rfl | h
        · exact .inr (by simp)
        · exact (ih h).imp id (List.mem_cons_of_mem _)

/-- A write keeps the canonical form. -/
theorem Memory.write_wf {m : Memory} {a : Nat} {v : Byte} (ha : a < 65536) (h : Memory.wf m = true) :
    Memory.wf (Memory.write m a v) = true := by
  induction m with
  | nil =>
    by_cases hv : v = Memory.unlisted
    · simp [Memory.write, hv]
    · simp [Memory.write, hv, Memory.wf_cons, ha]
  | cons d rest ih =>
    obtain ⟨k, b⟩ := d
    obtain ⟨hk, hb, hab, hw⟩ := Memory.wf_cons.1 h
    simp only [Memory.write]
    split
    · rename_i hlt
      split
      · exact h
      · rename_i hv
        refine Memory.wf_cons.2 ⟨ha, hv, fun c hc => ?_, h⟩
        rcases List.mem_cons.1 hc with rfl | hc
        · exact hlt
        · have := hab c hc; omega
    · rename_i hnlt
      split
      · split
        · exact hw
        · rename_i hv
          exact Memory.wf_cons.2 ⟨hk, hv, hab, hw⟩
      · rename_i hne
        refine Memory.wf_cons.2 ⟨hk, hb, fun c hc => ?_, ih hw⟩
        rcases Memory.mem_write hc with h1 | h1
        · omega
        · exact hab c h1

/-- Reading the address written gives the byte written. -/
theorem Memory.read_write_same {m : Memory} {a : Nat} {v : Byte} (h : Memory.wf m = true) :
    Memory.read (Memory.write m a v) a = v := by
  induction m with
  | nil => by_cases hv : v = Memory.unlisted <;> simp [Memory.write, hv, Memory.read]
  | cons d rest ih =>
    obtain ⟨k, b⟩ := d
    obtain ⟨-, -, hab, hw⟩ := Memory.wf_cons.1 h
    simp only [Memory.write]
    split
    · rename_i hlt
      split
      · rename_i hv
        rw [hv]
        refine Memory.read_of_above fun c hc => ?_
        rcases List.mem_cons.1 hc with rfl | hc
        · exact hlt
        · have := hab c hc; omega
      · simp [Memory.read]
    · split
      · rename_i heq
        split
        · rename_i hv
          rw [hv]
          exact Memory.read_of_above fun c hc => by have := hab c hc; omega
        · simp [Memory.read, heq]
      · rename_i hne
        have hka : k ≠ a := by omega
        simp only [Memory.read, if_neg hka]
        exact ih hw

/-- A write leaves every other address alone. -/
theorem Memory.read_write_other {m : Memory} {a b : Nat} {v : Byte} (hab : b ≠ a) :
    Memory.read (Memory.write m a v) b = Memory.read m b := by
  induction m with
  | nil => by_cases hv : v = Memory.unlisted <;> simp [Memory.write, hv, Memory.read, hab.symm]
  | cons d rest ih =>
    obtain ⟨k, w⟩ := d
    simp only [Memory.write]
    split
    · split
      · rfl
      · simp [Memory.read, hab.symm]
    · split
      · rename_i heq
        have hkb : k ≠ b := by omega
        split
        · simp [Memory.read, hkb]
        · simp [Memory.read, hkb]
      · simp only [Memory.read]
        split
        · rfl
        · exact ih

/-- Clearing a range keeps the canonical form. -/
theorem Memory.clear_wf {m : Memory} {base len : Nat} (h : Memory.wf m = true) : Memory.wf (Memory.clear m base len) = true := by
  induction m with
  | nil => rfl
  | cons d rest ih =>
    obtain ⟨k, b⟩ := d
    obtain ⟨hk, hb, hab, hw⟩ := Memory.wf_cons.1 h
    simp only [Memory.clear, List.filter_cons]
    split
    · exact Memory.wf_cons.2 ⟨hk, hb, fun c hc => hab c (List.mem_filter.1 hc).1, ih hw⟩
    · exact ih hw

/-- A cleared address reads as an unlisted one. -/
theorem Memory.read_clear {m : Memory} {base len a : Nat} :
    Memory.read (Memory.clear m base len) a =
      if base ≤ a ∧ a < base + len then Memory.unlisted else Memory.read m a := by
  induction m with
  | nil => simp [Memory.clear]
  | cons d rest ih =>
    obtain ⟨k, b⟩ := d
    simp only [Memory.clear, List.filter_cons] at ih ⊢
    by_cases hka : k = a
    · subst hka
      by_cases hr : base ≤ k ∧ k < base + len
      · simp only [hr, and_self, decide_true, Bool.and_self, Bool.not_true, Bool.false_eq_true, if_false, if_true] at ih ⊢
        exact ih
      · rw [if_neg hr]
        have : (!(decide (base ≤ k) && decide (k < base + len))) = true := by
          simp only [Bool.not_eq_true', Bool.and_eq_false_iff, decide_eq_false_iff_not]; omega
        simp [this, Memory.read]
    · split
      · simp only [Memory.read, if_neg hka, ih]
      · simp only [Memory.read, if_neg hka, ih]

end Sys2Proof.Machine
end

