-- ==== Sys2Proof/Laws/State.lean ====
section
/-! SUPPORT. One lemma per field per update of the state, each true by rfl, so that no proof unfolds a record update. -/

namespace Sys2Proof.Machine

@[simp] theorem setStatus_a (p : Status) (s : State) : (setStatus p s).a = s.a := rfl
@[simp] theorem setStatus_x (p : Status) (s : State) : (setStatus p s).x = s.x := rfl
@[simp] theorem setStatus_y (p : Status) (s : State) : (setStatus p s).y = s.y := rfl
@[simp] theorem setStatus_sp (p : Status) (s : State) : (setStatus p s).sp = s.sp := rfl
@[simp] theorem setStatus_p (p : Status) (s : State) : (setStatus p s).p = p := rfl
@[simp] theorem setStatus_cp (p : Status) (s : State) : (setStatus p s).cp = s.cp := rfl
@[simp] theorem setStatus_cycleCount (p : Status) (s : State) : (setStatus p s).cycleCount = s.cycleCount := rfl
@[simp] theorem setStatus_regions (p : Status) (s : State) : (setStatus p s).regions = s.regions := rfl
@[simp] theorem setStatus_mem (p : Status) (s : State) : (setStatus p s).mem = s.mem := rfl

@[simp] theorem setNZ_a (v : Byte) (s : State) : (setNZ v s).a = s.a := rfl
@[simp] theorem setNZ_x (v : Byte) (s : State) : (setNZ v s).x = s.x := rfl
@[simp] theorem setNZ_y (v : Byte) (s : State) : (setNZ v s).y = s.y := rfl
@[simp] theorem setNZ_sp (v : Byte) (s : State) : (setNZ v s).sp = s.sp := rfl
@[simp] theorem setNZ_p (v : Byte) (s : State) : (setNZ v s).p = Status.setNZ v s.p := rfl
@[simp] theorem setNZ_cp (v : Byte) (s : State) : (setNZ v s).cp = s.cp := rfl
@[simp] theorem setNZ_cycleCount (v : Byte) (s : State) : (setNZ v s).cycleCount = s.cycleCount := rfl
@[simp] theorem setNZ_regions (v : Byte) (s : State) : (setNZ v s).regions = s.regions := rfl
@[simp] theorem setNZ_mem (v : Byte) (s : State) : (setNZ v s).mem = s.mem := rfl

@[simp] theorem setCp_a (target : Addr) (s : State) : (setCp target s).a = s.a := rfl
@[simp] theorem setCp_x (target : Addr) (s : State) : (setCp target s).x = s.x := rfl
@[simp] theorem setCp_y (target : Addr) (s : State) : (setCp target s).y = s.y := rfl
@[simp] theorem setCp_sp (target : Addr) (s : State) : (setCp target s).sp = s.sp := rfl
@[simp] theorem setCp_p (target : Addr) (s : State) : (setCp target s).p = s.p := rfl
@[simp] theorem setCp_cp (target : Addr) (s : State) : (setCp target s).cp = target := rfl
@[simp] theorem setCp_cycleCount (target : Addr) (s : State) : (setCp target s).cycleCount = s.cycleCount := rfl
@[simp] theorem setCp_regions (target : Addr) (s : State) : (setCp target s).regions = s.regions := rfl
@[simp] theorem setCp_mem (target : Addr) (s : State) : (setCp target s).mem = s.mem := rfl

@[simp] theorem addCycles_a (n : Nat) (s : State) : (addCycles n s).a = s.a := rfl
@[simp] theorem addCycles_x (n : Nat) (s : State) : (addCycles n s).x = s.x := rfl
@[simp] theorem addCycles_y (n : Nat) (s : State) : (addCycles n s).y = s.y := rfl
@[simp] theorem addCycles_sp (n : Nat) (s : State) : (addCycles n s).sp = s.sp := rfl
@[simp] theorem addCycles_p (n : Nat) (s : State) : (addCycles n s).p = s.p := rfl
@[simp] theorem addCycles_cp (n : Nat) (s : State) : (addCycles n s).cp = s.cp := rfl
@[simp] theorem addCycles_cycleCount (n : Nat) (s : State) : (addCycles n s).cycleCount = s.cycleCount + BitVec.ofNat 64 n := rfl
@[simp] theorem addCycles_regions (n : Nat) (s : State) : (addCycles n s).regions = s.regions := rfl
@[simp] theorem addCycles_mem (n : Nat) (s : State) : (addCycles n s).mem = s.mem := rfl

@[simp] theorem advance_a (len n : Nat) (s : State) : (advance len n s).a = s.a := rfl
@[simp] theorem advance_x (len n : Nat) (s : State) : (advance len n s).x = s.x := rfl
@[simp] theorem advance_y (len n : Nat) (s : State) : (advance len n s).y = s.y := rfl
@[simp] theorem advance_sp (len n : Nat) (s : State) : (advance len n s).sp = s.sp := rfl
@[simp] theorem advance_p (len n : Nat) (s : State) : (advance len n s).p = s.p := rfl
@[simp] theorem advance_cp (len n : Nat) (s : State) : (advance len n s).cp = offsetAddr s.cp len := rfl
@[simp] theorem advance_cycleCount (len n : Nat) (s : State) : (advance len n s).cycleCount = s.cycleCount + BitVec.ofNat 64 n := rfl
@[simp] theorem advance_regions (len n : Nat) (s : State) : (advance len n s).regions = s.regions := rfl
@[simp] theorem advance_mem (len n : Nat) (s : State) : (advance len n s).mem = s.mem := rfl

@[simp] theorem jumpTo_a (target : Addr) (n : Nat) (s : State) : (jumpTo target n s).a = s.a := rfl
@[simp] theorem jumpTo_x (target : Addr) (n : Nat) (s : State) : (jumpTo target n s).x = s.x := rfl
@[simp] theorem jumpTo_y (target : Addr) (n : Nat) (s : State) : (jumpTo target n s).y = s.y := rfl
@[simp] theorem jumpTo_sp (target : Addr) (n : Nat) (s : State) : (jumpTo target n s).sp = s.sp := rfl
@[simp] theorem jumpTo_p (target : Addr) (n : Nat) (s : State) : (jumpTo target n s).p = s.p := rfl
@[simp] theorem jumpTo_cp (target : Addr) (n : Nat) (s : State) : (jumpTo target n s).cp = target := rfl
@[simp] theorem jumpTo_cycleCount (target : Addr) (n : Nat) (s : State) : (jumpTo target n s).cycleCount = s.cycleCount + BitVec.ofNat 64 n := rfl
@[simp] theorem jumpTo_regions (target : Addr) (n : Nat) (s : State) : (jumpTo target n s).regions = s.regions := rfl
@[simp] theorem jumpTo_mem (target : Addr) (n : Nat) (s : State) : (jumpTo target n s).mem = s.mem := rfl

@[simp] theorem setRegions_a (rs : List Region) (s : State) : (setRegions rs s).a = s.a := rfl
@[simp] theorem setRegions_x (rs : List Region) (s : State) : (setRegions rs s).x = s.x := rfl
@[simp] theorem setRegions_y (rs : List Region) (s : State) : (setRegions rs s).y = s.y := rfl
@[simp] theorem setRegions_sp (rs : List Region) (s : State) : (setRegions rs s).sp = s.sp := rfl
@[simp] theorem setRegions_p (rs : List Region) (s : State) : (setRegions rs s).p = s.p := rfl
@[simp] theorem setRegions_cp (rs : List Region) (s : State) : (setRegions rs s).cp = s.cp := rfl
@[simp] theorem setRegions_cycleCount (rs : List Region) (s : State) : (setRegions rs s).cycleCount = s.cycleCount := rfl
@[simp] theorem setRegions_regions (rs : List Region) (s : State) : (setRegions rs s).regions = rs := rfl
@[simp] theorem setRegions_mem (rs : List Region) (s : State) : (setRegions rs s).mem = s.mem := rfl

@[simp] theorem setMem_a (m : Memory) (s : State) : (setMem m s).a = s.a := rfl
@[simp] theorem setMem_x (m : Memory) (s : State) : (setMem m s).x = s.x := rfl
@[simp] theorem setMem_y (m : Memory) (s : State) : (setMem m s).y = s.y := rfl
@[simp] theorem setMem_sp (m : Memory) (s : State) : (setMem m s).sp = s.sp := rfl
@[simp] theorem setMem_p (m : Memory) (s : State) : (setMem m s).p = s.p := rfl
@[simp] theorem setMem_cp (m : Memory) (s : State) : (setMem m s).cp = s.cp := rfl
@[simp] theorem setMem_cycleCount (m : Memory) (s : State) : (setMem m s).cycleCount = s.cycleCount := rfl
@[simp] theorem setMem_regions (m : Memory) (s : State) : (setMem m s).regions = s.regions := rfl
@[simp] theorem setMem_mem (m : Memory) (s : State) : (setMem m s).mem = m := rfl

@[simp] theorem setReg_a_a (v : Byte) (s : State) : (setReg .a v s).a = v := rfl
@[simp] theorem setReg_a_x (v : Byte) (s : State) : (setReg .a v s).x = s.x := rfl
@[simp] theorem setReg_a_y (v : Byte) (s : State) : (setReg .a v s).y = s.y := rfl
@[simp] theorem setReg_a_sp (v : Byte) (s : State) : (setReg .a v s).sp = s.sp := rfl
@[simp] theorem setReg_x_a (v : Byte) (s : State) : (setReg .x v s).a = s.a := rfl
@[simp] theorem setReg_x_x (v : Byte) (s : State) : (setReg .x v s).x = v := rfl
@[simp] theorem setReg_x_y (v : Byte) (s : State) : (setReg .x v s).y = s.y := rfl
@[simp] theorem setReg_x_sp (v : Byte) (s : State) : (setReg .x v s).sp = s.sp := rfl
@[simp] theorem setReg_y_a (v : Byte) (s : State) : (setReg .y v s).a = s.a := rfl
@[simp] theorem setReg_y_x (v : Byte) (s : State) : (setReg .y v s).x = s.x := rfl
@[simp] theorem setReg_y_y (v : Byte) (s : State) : (setReg .y v s).y = v := rfl
@[simp] theorem setReg_y_sp (v : Byte) (s : State) : (setReg .y v s).sp = s.sp := rfl
@[simp] theorem setReg_sp_a (v : Byte) (s : State) : (setReg .sp v s).a = s.a := rfl
@[simp] theorem setReg_sp_x (v : Byte) (s : State) : (setReg .sp v s).x = s.x := rfl
@[simp] theorem setReg_sp_y (v : Byte) (s : State) : (setReg .sp v s).y = s.y := rfl
@[simp] theorem setReg_sp_sp (v : Byte) (s : State) : (setReg .sp v s).sp = v := rfl

@[simp] theorem setReg_p (r : Reg) (v : Byte) (s : State) : (setReg r v s).p = s.p := by cases r <;> rfl
@[simp] theorem setReg_cp (r : Reg) (v : Byte) (s : State) : (setReg r v s).cp = s.cp := by cases r <;> rfl
@[simp] theorem setReg_cycleCount (r : Reg) (v : Byte) (s : State) : (setReg r v s).cycleCount = s.cycleCount := by cases r <;> rfl
@[simp] theorem setReg_regions (r : Reg) (v : Byte) (s : State) : (setReg r v s).regions = s.regions := by cases r <;> rfl
@[simp] theorem setReg_mem (r : Reg) (v : Byte) (s : State) : (setReg r v s).mem = s.mem := by cases r <;> rfl

@[simp] theorem reg_a (s : State) : s.reg .a = s.a := rfl
@[simp] theorem reg_x (s : State) : s.reg .x = s.x := rfl
@[simp] theorem reg_y (s : State) : s.reg .y = s.y := rfl
@[simp] theorem reg_sp (s : State) : s.reg .sp = s.sp := rfl

/-- A register reads what was last written to it, and a write leaves the other registers alone. -/
@[simp] theorem reg_setReg (r q : Reg) (v : Byte) (s : State) : (setReg r v s).reg q = if r = q then v else s.reg q := by
  cases r <;> cases q <;> rfl

end Sys2Proof.Machine
end

