-- ==== Sys2Proof/Laws/Fabric.lean ====
section
/-! SUPPORT. What a fabric access can do, said once: a read that answers changes nothing but the private state of the
peripheral it reached, a write that answers changes one byte of RAM or one peripheral. -/

namespace Sys2Proof.Machine

/-! ## Chaining accesses -/

@[simp] theorem withAnswer_ok {α β : Type} (v : α) (s : State) (f : α → State → Except Fault β) :
    withAnswer (.ok (v, s)) f = f v s := rfl

@[simp] theorem withAnswer_error {α β : Type} (e : Fault) (f : α → State → Except Fault β) :
    withAnswer (.error e : Access α) f = .error e := rfl

@[simp] theorem withState_ok {β : Type} (s : State) (f : State → Except Fault β) : withState (.ok s) f = f s := rfl

@[simp] theorem withState_error {β : Type} (e : Fault) (f : State → Except Fault β) : withState (.error e) f = .error e := rfl

@[simp] theorem toResult_ok (s : State) : toResult (.ok s) = .next s := rfl

@[simp] theorem toResult_error (e : Fault) : toResult (.error e) = .fault e := rfl

/-- An operation that goes on after an access answers exactly when both answer. -/
theorem withAnswer_eq_ok {α β : Type} {r : Access α} {f : α → State → Except Fault β} {y : β} :
    withAnswer r f = .ok y ↔ ∃ v s, r = .ok (v, s) ∧ f v s = .ok y := by
  cases r with
  | error e => simp
  | ok p =>
    obtain ⟨v, s⟩ := p
    exact ⟨fun h => ⟨v, s, rfl, h⟩, fun ⟨_, _, h, k⟩ => by cases h; exact k⟩

theorem withState_eq_ok {β : Type} {r : Except Fault State} {f : State → Except Fault β} {y : β} :
    withState r f = .ok y ↔ ∃ s, r = .ok s ∧ f s = .ok y := by
  cases r with
  | error e => simp
  | ok s => simp

/-- It fails with the access's error, or with one of what follows. -/
theorem withAnswer_eq_error {α β : Type} {r : Access α} {f : α → State → Except Fault β} {e : Fault} :
    withAnswer r f = .error e ↔ r = .error e ∨ ∃ v s, r = .ok (v, s) ∧ f v s = .error e := by
  cases r with
  | error d => simp
  | ok p =>
    obtain ⟨v, s⟩ := p
    exact ⟨fun h => .inr ⟨v, s, rfl, h⟩, fun h => h.elim (fun h => nomatch h) fun ⟨_, _, h, k⟩ => by cases h; exact k⟩

theorem withState_eq_error {β : Type} {r : Except Fault State} {f : State → Except Fault β} {e : Fault} :
    withState r f = .error e ↔ r = .error e ∨ ∃ s, r = .ok s ∧ f s = .error e := by
  cases r with
  | error d => simp
  | ok s => simp

@[simp] theorem toResult_eq_next {r : Except Fault State} {t : State} : toResult r = .next t ↔ r = .ok t := by
  cases r <;> simp

@[simp] theorem toResult_eq_fault {r : Except Fault State} {e : Fault} : toResult r = .fault e ↔ r = .error e := by
  cases r <;> simp

@[simp] theorem toResult_ne_refused {r : Except Fault State} {e : Refusal} : toResult r ≠ .refused e := by
  cases r <;> simp

/-! ## Regions and their private states -/

@[simp] theorem Region.withPrivateState_base (r : Region) (n : Nat) : (r.withPrivateState n).base = r.base := by
  unfold Region.withPrivateState; split <;> rfl

@[simp] theorem Region.withPrivateState_len (r : Region) (n : Nat) : (r.withPrivateState n).len = r.len := by
  unfold Region.withPrivateState; split <;> rfl

@[simp] theorem Region.withPrivateState_holds (r : Region) (n : Nat) (a : Addr) : (r.withPrivateState n).holds a = r.holds a := by
  simp [Region.holds]

@[simp] theorem Region.withPrivateState_twice (r : Region) (n k : Nat) :
    (r.withPrivateState n).withPrivateState k = r.withPrivateState k := by
  obtain ⟨kind, base, len⟩ := r
  cases kind <;> rfl

@[simp] theorem Region.withPrivateState_stores (r : Region) (n : Nat) : (r.withPrivateState n).stores = r.stores := by
  obtain ⟨kind, base, len⟩ := r
  cases kind <;> rfl

/-- Moving a peripheral leaves the map of the fabric as it was. -/
theorem movePeripheral_map (rs : List Region) (a : Addr) (n : Nat) :
    (movePeripheral rs a n).map (fun r => r.withPrivateState 0) = rs.map (fun r => r.withPrivateState 0) := by
  induction rs with
  | nil => rfl
  | cons r rest ih =>
    simp only [movePeripheral]
    split
    · simp
    · simp [ih]

/-- What `lookup` finds, up to the private state, depends on the fabric's map alone. -/
theorem lookup_map (rs : List Region) (a : Addr) :
    lookup (rs.map fun r => r.withPrivateState 0) a = (lookup rs a).map fun r => r.withPrivateState 0 := by
  induction rs with
  | nil => rfl
  | cons r rest ih =>
    simp only [lookup, List.map_cons, List.find?_cons, Region.withPrivateState_holds] at ih ⊢
    split
    · rfl
    · exact ih

/-- The kind of the subsystem at an address, without a peripheral's private state. -/
def kindAt (s : State) (a : Addr) : Option Kind := (lookup (fabricMap s) a).map fun r => r.kind

theorem lookup_fabricMap (s : State) (a : Addr) : lookup (fabricMap s) a = (lookup s.regions a).map fun r => r.withPrivateState 0 :=
  lookup_map s.regions a

theorem peek_eq (s : State) (a : Addr) :
    peek s a = match kindAt s a with
      | some .ram => some (Memory.read s.mem a.toNat)
      | some .rom => some (Memory.read s.mem a.toNat)
      | some (.peripheral _ _) => none
      | none => none := by
  unfold peek kindAt
  rw [lookup_fabricMap]
  cases h : lookup s.regions a with
  | none => rfl
  | some r =>
    obtain ⟨kind, base, len⟩ := r
    cases kind <;> rfl

/-- Two states with the same map and the same store show the same bytes. -/
theorem peek_congr {s t : State} (hm : fabricMap t = fabricMap s) (hs : t.mem = s.mem) (a : Addr) : peek t a = peek s a := by
  rw [peek_eq, peek_eq, kindAt, kindAt, hm, hs]

theorem isRam_iff (s : State) (a : Addr) : IsRam s a ↔ kindAt s a = some .ram := by
  unfold IsRam kindAt
  rw [lookup_fabricMap]
  cases h : lookup s.regions a with
  | none => simp
  | some r =>
    obtain ⟨kind, base, len⟩ := r
    cases kind <;> simp [Region.withPrivateState]

theorem isRom_iff (s : State) (a : Addr) : IsRom s a ↔ kindAt s a = some .rom := by
  unfold IsRom kindAt
  rw [lookup_fabricMap]
  cases h : lookup s.regions a with
  | none => simp
  | some r =>
    obtain ⟨kind, base, len⟩ := r
    cases kind <;> simp [Region.withPrivateState]

theorem isRam_congr {s t : State} (hm : fabricMap t = fabricMap s) (a : Addr) : IsRam t a ↔ IsRam s a := by
  rw [isRam_iff, isRam_iff, kindAt, kindAt, hm]

theorem isRom_congr {s t : State} (hm : fabricMap t = fabricMap s) (a : Addr) : IsRom t a ↔ IsRom s a := by
  rw [isRom_iff, isRom_iff, kindAt, kindAt, hm]

/-- Whether an address is mapped depends on the map alone. -/
theorem mapped_iff (s : State) (a : Addr) : (lookup s.regions a).isSome = (lookup (fabricMap s) a).isSome := by
  rw [lookup_fabricMap]; simp

theorem noPeripheral_iff (s : State) : NoPeripheral s ↔ ∀ r ∈ fabricMap s, r.stores = true := by
  simp [NoPeripheral, fabricMap]

theorem noPeripheral_congr {s t : State} (hm : fabricMap t = fabricMap s) : NoPeripheral t ↔ NoPeripheral s := by
  rw [noPeripheral_iff, noPeripheral_iff, hm]

/-! ## Two states that differ in peripherals alone -/

theorem SameButPeripherals.refl (s : State) : SameButPeripherals s s := ⟨rfl, rfl⟩

theorem SameButPeripherals.trans {s t u : State} (h : SameButPeripherals s t) (k : SameButPeripherals t u) :
    SameButPeripherals s u := by
  refine ⟨?_, k.2.trans h.2⟩
  obtain ⟨ha, hb, hx, hy, hz, hp, hc, hr, hm⟩ := u
  rw [k.1, h.1]

theorem SameButPeripherals.a {s t : State} (h : SameButPeripherals s t) : t.a = s.a := by rw [h.1]
theorem SameButPeripherals.x {s t : State} (h : SameButPeripherals s t) : t.x = s.x := by rw [h.1]
theorem SameButPeripherals.y {s t : State} (h : SameButPeripherals s t) : t.y = s.y := by rw [h.1]
theorem SameButPeripherals.sp {s t : State} (h : SameButPeripherals s t) : t.sp = s.sp := by rw [h.1]
theorem SameButPeripherals.p {s t : State} (h : SameButPeripherals s t) : t.p = s.p := by rw [h.1]
theorem SameButPeripherals.cp {s t : State} (h : SameButPeripherals s t) : t.cp = s.cp := by rw [h.1]
theorem SameButPeripherals.cycleCount {s t : State} (h : SameButPeripherals s t) : t.cycleCount = s.cycleCount := by rw [h.1]
theorem SameButPeripherals.mem {s t : State} (h : SameButPeripherals s t) : t.mem = s.mem := by rw [h.1]
theorem SameButPeripherals.peek {s t : State} (h : SameButPeripherals s t) (a : Addr) : peek t a = peek s a :=
  peek_congr h.2 h.mem a

/-! ## The fabric's read and write -/

/-- A read leaves everything but a peripheral's private state, whether it answers a byte or an error. -/
theorem fabricRead_same (a : Addr) (s : State) : SameButPeripherals s (fabricRead a s).2 := by
  unfold fabricRead
  split
  · exact .refl s
  · split
    · exact .refl s
    · exact .refl s
    · exact ⟨rfl, movePeripheral_map ..⟩

/-- A read inside a step answers exactly what the fabric's read answers. -/
theorem memRead_eq_ok {a : Addr} {s t : State} {v : Byte} : memRead a s = .ok (v, t) ↔ fabricRead a s = (.ok v, t) := by
  unfold memRead
  rcases fabricRead a s with ⟨r, u⟩
  cases r <;> simp

theorem memRead_eq_error {a : Addr} {s : State} {e : Fault} : memRead a s = .error e ↔ (fabricRead a s).1 = .error e := by
  unfold memRead
  rcases fabricRead a s with ⟨r, u⟩
  cases r <;> simp

/-- A write inside a step succeeds exactly as the fabric's write does. -/
theorem memWrite_eq_ok {a : Addr} {v : Byte} {s t : State} : memWrite a v s = .ok t ↔ fabricWrite a v s = (none, t) := by
  unfold memWrite
  rcases fabricWrite a v s with ⟨r, u⟩
  cases r <;> simp

theorem memWrite_eq_error {a : Addr} {v : Byte} {s : State} {e : Fault} :
    memWrite a v s = .error e ↔ (fabricWrite a v s).1 = some e := by
  unfold memWrite
  rcases fabricWrite a v s with ⟨r, u⟩
  cases r <;> simp

/-! ## The errors of an access -/

/-- The errors a read can raise (60_exceptions.md R351), each with what stands at its address. -/
inductive ReadError (s : State) : Fault → Prop where
  | unmapped {a : Addr} (h : lookup s.regions a = none) : ReadError s (.unmappedAddress a)
  | device {a : Addr} (k : ErrorKind) (h : IsPeripheral s a) : ReadError s (.peripheralError k a)

/-- The errors a write can raise (R351). -/
inductive WriteError (s : State) : Fault → Prop where
  | read {e : Fault} (h : ReadError s e) : WriteError s e
  | rom {a : Addr} (h : IsRom s a) : WriteError s (.writeToReadOnly a)

theorem unmapped_congr {s t : State} (hm : fabricMap t = fabricMap s) (a : Addr) :
    lookup t.regions a = none ↔ lookup s.regions a = none := by
  rw [← Option.map_eq_none_iff (f := fun r => r.withPrivateState 0), ← lookup_fabricMap, hm, lookup_fabricMap]
  simp

theorem isPeripheral_iff (s : State) (a : Addr) : IsPeripheral s a ↔ (lookup (fabricMap s) a).map (fun r => r.stores) = some false := by
  rw [lookup_fabricMap, IsPeripheral]
  simp [Function.comp_def]

theorem isPeripheral_congr {s t : State} (hm : fabricMap t = fabricMap s) (a : Addr) : IsPeripheral t a ↔ IsPeripheral s a := by
  rw [isPeripheral_iff, isPeripheral_iff, hm]

theorem ReadError.congr {s t : State} (hm : fabricMap t = fabricMap s) {e : Fault} (h : ReadError t e) : ReadError s e := by
  cases h with
  | unmapped h => exact .unmapped ((unmapped_congr hm _).1 h)
  | device k h => exact .device k ((isPeripheral_congr hm _).1 h)

theorem WriteError.congr {s t : State} (hm : fabricMap t = fabricMap s) {e : Fault} (h : WriteError t e) : WriteError s e := by
  cases h with
  | read h => exact .read (h.congr hm)
  | rom h => exact .rom ((isRom_congr hm _).1 h)

/-- Where no subsystem is a peripheral, a read fails at an unmapped address alone. -/
theorem ReadError.of_noPeripheral {s : State} (hn : NoPeripheral s) {e : Fault} (h : ReadError s e) :
    ∃ a, e = .unmappedAddress a ∧ lookup s.regions a = none := by
  cases h with
  | unmapped h => exact ⟨_, rfl, h⟩
  | device k h =>
    obtain ⟨r, hr, hst⟩ := Option.map_eq_some_iff.1 h
    rw [hn r (List.mem_of_find?_eq_some hr)] at hst
    cases hst

/-- Where every address is mapped, a read fails in a peripheral alone. -/
theorem ReadError.of_covered {s : State} (hc : Covered s) {e : Fault} (h : ReadError s e) :
    ∃ k a, e = .peripheralError k a ∧ IsPeripheral s a := by
  cases h with
  | @unmapped a h => have := hc a; rw [h] at this; cases this
  | device k h => exact ⟨k, _, rfl, h⟩

/-! ## Reads -/

/-- A read that answers changes nothing but the private state of a peripheral. -/
theorem memRead_ok {a : Addr} {s t : State} {v : Byte} (h : memRead a s = .ok (v, t)) : SameButPeripherals s t := by
  have := fabricRead_same a s
  rwa [memRead_eq_ok.1 h] at this

/-- Where a byte of RAM or ROM stands, the read answers it and changes nothing (20_memory.md R33, R34). -/
theorem fabricRead_of_peek {a : Addr} {s : State} {v : Byte} (h : peek s a = some v) : fabricRead a s = (.ok v, s) := by
  unfold peek at h
  unfold fabricRead
  cases hr : lookup s.regions a with
  | none => simp [hr] at h
  | some r => cases hk : r.kind <;> simp_all

theorem memRead_of_peek {a : Addr} {s : State} {v : Byte} (h : peek s a = some v) : memRead a s = .ok (v, s) :=
  memRead_eq_ok.2 (fabricRead_of_peek h)

/-- A read fails with `UnmappedAddress` at an unmapped address (R38), or with a peripheral's own error in a peripheral. -/
theorem fabricRead_error {a : Addr} {s t : State} {e : Fault} (h : fabricRead a s = (.error e, t)) : ReadError s e := by
  unfold fabricRead at h
  split at h
  · rename_i hl; simp at h; obtain ⟨rfl, -⟩ := h; exact .unmapped hl
  · rename_i r hr
    split at h
    · simp at h
    · simp at h
    · rename_i dev st hk
      simp only [Prod.mk.injEq] at h
      cases he : (Config.periphRead dev st (r.offset a)).1 with
      | ok b => rw [he] at h; cases h.1
      | error k =>
        rw [he] at h
        cases h.1
        exact .device k (by simp [IsPeripheral, hr, Region.stores, hk])

theorem memRead_error {a : Addr} {s : State} {e : Fault} (h : memRead a s = .error e) : ReadError s e :=
  fabricRead_error (t := (fabricRead a s).2) (Prod.ext (memRead_eq_error.1 h) rfl)

/-- A read of an unmapped address fails (R38). -/
theorem memRead_unmapped {a : Addr} {s : State} (h : lookup s.regions a = none) : memRead a s = .error (.unmappedAddress a) := by
  simp [memRead, fabricRead, h]

/-- Where no subsystem is a peripheral, a mapped address shows its byte. -/
theorem peek_noPeripheral {a : Addr} {s : State} (hn : NoPeripheral s) (hm : (lookup s.regions a).isSome = true) :
    peek s a = some (Memory.read s.mem a.toNat) := by
  obtain ⟨r, hr⟩ := Option.isSome_iff_exists.1 hm
  have hst : r.stores = true := hn r (List.mem_of_find?_eq_some hr)
  unfold peek
  rw [hr]
  cases hk : r.kind with
  | ram => simp [hk]
  | rom => simp [hk]
  | peripheral dev st => simp [Region.stores, hk] at hst

/-- There a read answers and changes nothing. -/
theorem memRead_noPeripheral_mapped {a : Addr} {s : State} (hn : NoPeripheral s) (hm : (lookup s.regions a).isSome = true) :
    ∃ v, memRead a s = .ok (v, s) := ⟨_, memRead_of_peek (peek_noPeripheral hn hm)⟩

/-- With no peripheral about, a read that answers changes nothing. -/
theorem memRead_noPeripheral {a : Addr} {s t : State} {v : Byte} (hn : NoPeripheral s) (h : memRead a s = .ok (v, t)) :
    t = s ∧ peek s a = some v := by
  cases hl : lookup s.regions a with
  | none => rw [memRead_unmapped hl] at h; cases h
  | some r =>
    have hp := peek_noPeripheral hn (by rw [hl]; rfl)
    rw [memRead_of_peek hp] at h
    cases h
    exact ⟨rfl, hp⟩

/-! ## The registers play no part in an access -/

/-- The registers of `q` over the fabric and the store of `s`. -/
def overFabric (q s : State) : State := { q with regions := s.regions, mem := s.mem }

theorem fabricRead_overFabric (q : State) (a : Addr) (s : State) :
    fabricRead a (overFabric q s) = ((fabricRead a s).1, overFabric q (fabricRead a s).2) := by
  unfold fabricRead
  show (match lookup s.regions a with
    | none => _
    | some r => _) = _
  cases h : lookup s.regions a with
  | none => rfl
  | some r =>
    obtain ⟨kind, base, len⟩ := r
    cases kind <;> rfl

theorem memRead_overFabric (q : State) (a : Addr) (s : State) :
    memRead a (overFabric q s) = (memRead a s).map fun p => (p.1, overFabric q p.2) := by
  unfold memRead
  rw [fabricRead_overFabric]
  rcases fabricRead a s with ⟨r, u⟩
  cases r <;> rfl

theorem fabricWrite_overFabric (q : State) (a : Addr) (v : Byte) (s : State) :
    fabricWrite a v (overFabric q s) = ((fabricWrite a v s).1, overFabric q (fabricWrite a v s).2) := by
  unfold fabricWrite
  show (match lookup s.regions a with
    | none => _
    | some r => _) = _
  cases h : lookup s.regions a with
  | none => rfl
  | some r =>
    obtain ⟨kind, base, len⟩ := r
    cases kind <;> rfl

theorem memWrite_overFabric (q : State) (a : Addr) (v : Byte) (s : State) :
    memWrite a v (overFabric q s) = (memWrite a v s).map fun p => overFabric q p := by
  unfold memWrite
  rw [fabricWrite_overFabric]
  rcases fabricWrite a v s with ⟨r, u⟩
  cases r <;> rfl

/-! ## Writes -/

/-- A write replaces one byte of RAM, or leaves everything but a peripheral's private state: in a peripheral, or failing. -/
theorem fabricWrite_cases (a : Addr) (v : Byte) (s : State) :
    (IsRam s a ∧ fabricWrite a v s = (none, setMem (Memory.write s.mem a.toNat v) s)) ∨
      (((fabricWrite a v s).1 = none → peek s a = none) ∧ SameButPeripherals s (fabricWrite a v s).2) := by
  unfold fabricWrite IsRam peek
  cases hr : lookup s.regions a with
  | none => exact .inr ⟨fun h => rfl, .refl s⟩
  | some r =>
    cases hk : r.kind with
    | ram => exact .inl ⟨by simp [hk], by simp [hk]⟩
    | rom => exact .inr ⟨fun h => by simp [hk] at h, by simp only [hk]; exact .refl s⟩
    | peripheral dev st => exact .inr ⟨fun _ => by simp [hk], by simp only [hk]; exact ⟨rfl, movePeripheral_map ..⟩⟩

/-- A write that answers replaces one byte of RAM, or moves one peripheral. -/
theorem memWrite_ok {a : Addr} {v : Byte} {s t : State} (h : memWrite a v s = .ok t) :
    (IsRam s a ∧ t = setMem (Memory.write s.mem a.toNat v) s) ∨ (peek s a = none ∧ SameButPeripherals s t) := by
  have hf := memWrite_eq_ok.1 h
  rcases fabricWrite_cases a v s with ⟨hr, hw⟩ | ⟨hp, hs⟩
  · rw [hf] at hw; exact .inl ⟨hr, congrArg Prod.snd hw⟩
  · rw [hf] at hp hs; exact .inr ⟨hp rfl, hs⟩

/-- A write to RAM replaces the byte and nothing else (R33). -/
theorem memWrite_ram {a : Addr} {s : State} (h : IsRam s a) (v : Byte) :
    memWrite a v s = .ok (setMem (Memory.write s.mem a.toNat v) s) := by
  unfold IsRam at h
  unfold memWrite fabricWrite
  cases hr : lookup s.regions a with
  | none => simp [hr] at h
  | some r => simp [hr] at h; simp [h]

/-- A write to ROM is refused (R34, R39). -/
theorem memWrite_rom {a : Addr} {s : State} (h : IsRom s a) (v : Byte) : memWrite a v s = .error (.writeToReadOnly a) := by
  unfold IsRom at h
  unfold memWrite fabricWrite
  cases hr : lookup s.regions a with
  | none => simp [hr] at h
  | some r => simp [hr] at h; simp [h]

/-- The errors a write can raise (60_exceptions.md R351). -/
theorem fabricWrite_error {a : Addr} {v : Byte} {s t : State} {e : Fault} (h : fabricWrite a v s = (some e, t)) :
    WriteError s e := by
  unfold fabricWrite at h
  split at h
  · rename_i hl; simp at h; obtain ⟨rfl, -⟩ := h; exact .read (.unmapped hl)
  · rename_i r hr
    split at h
    · simp at h
    · rename_i hk; simp at h; obtain ⟨rfl, -⟩ := h; exact .rom (by simp [IsRom, hr, hk])
    · rename_i dev st hk
      simp only [Prod.mk.injEq, Option.map_eq_some_iff] at h
      obtain ⟨⟨k, -, rfl⟩, -⟩ := h
      exact .read (.device k (by simp [IsPeripheral, hr, Region.stores, hk]))

theorem memWrite_error {a : Addr} {v : Byte} {s : State} {e : Fault} (h : memWrite a v s = .error e) : WriteError s e :=
  fabricWrite_error (t := (fabricWrite a v s).2) (Prod.ext (memWrite_eq_error.1 h) rfl)

/-- A write that answers leaves the registers and the fabric's map as they were. -/
theorem memWrite_frame {a : Addr} {v : Byte} {s t : State} (h : memWrite a v s = .ok t) :
    t = { s with regions := t.regions, mem := t.mem } ∧ fabricMap t = fabricMap s := by
  rcases memWrite_ok h with ⟨-, rfl⟩ | ⟨-, h1, h2⟩
  · exact ⟨rfl, rfl⟩
  · exact ⟨by rw [h1], h2⟩

/-- A write that answers leaves every other byte as it was. -/
theorem memWrite_peek_other {a b : Addr} {v : Byte} {s t : State} (h : memWrite a v s = .ok t) (hab : b ≠ a) :
    peek t b = peek s b := by
  rcases memWrite_ok h with ⟨-, rfl⟩ | ⟨-, h1⟩
  · have hne : b.toNat ≠ a.toNat := fun he => hab (BitVec.eq_of_toNat_eq he)
    rw [peek_eq, peek_eq]
    simp only [kindAt, fabricMap, setMem_regions, setMem_mem, Memory.read_write_other hne]
  · exact h1.peek b

/-- A write to RAM is read back (R33). -/
theorem memWrite_peek_same {a : Addr} {v : Byte} {s t : State} (hw : Memory.wf s.mem = true) (hr : IsRam s a)
    (h : memWrite a v s = .ok t) : peek t a = some v := by
  rw [memWrite_ram hr] at h
  simp at h
  subst h
  have hk := (isRam_iff s a).1 hr
  simp only [kindAt, fabricMap] at hk
  rw [peek_eq]
  simp only [kindAt, fabricMap, setMem_regions, setMem_mem, hk]
  rw [Memory.read_write_same hw]

/-- Reads and writes keep the store's canonical form. -/
theorem memWrite_wf {a : Addr} {v : Byte} {s t : State} (hw : Memory.wf s.mem = true) (h : memWrite a v s = .ok t) :
    Memory.wf t.mem = true := by
  rcases memWrite_ok h with ⟨-, rfl⟩ | ⟨-, h1⟩
  · exact Memory.write_wf a.isLt hw
  · rw [h1.mem]; exact hw

end Sys2Proof.Machine
end

