-- ==== Sys2Proof/Laws/Ops.lean ====
section
/-! SUPPORT. What the shared operations over memory and registers can do, said once each: operand resolution, operand
reads, the fetch, the stack, BRK's entry and RTI's return. -/

namespace Sys2Proof.Machine

/-! ## Operands -/

theorem memRead16_ok {a : Addr} {s t : State} {w : Addr} (h : memRead16 a s = .ok (w, t)) : SameButPeripherals s t := by
  obtain ⟨lo, s1, h1, h⟩ := withAnswer_eq_ok.1 h
  obtain ⟨hi, s2, h2, h⟩ := withAnswer_eq_ok.1 h
  cases h
  exact (memRead_ok h1).trans (memRead_ok h2)

theorem memRead16zp_ok {z : Byte} {s t : State} {w : Addr} (h : memRead16zp z s = .ok (w, t)) : SameButPeripherals s t := by
  obtain ⟨lo, s1, h1, h⟩ := withAnswer_eq_ok.1 h
  obtain ⟨hi, s2, h2, h⟩ := withAnswer_eq_ok.1 h
  cases h
  exact (memRead_ok h1).trans (memRead_ok h2)

theorem memRead16_of_peek {a : Addr} {s : State} {lo hi : Byte} (h1 : peek s a = some lo) (h2 : peek s (a + 1) = some hi) :
    memRead16 a s = .ok (word lo hi, s) := by
  rw [memRead16, memRead_of_peek h1, withAnswer_ok, memRead_of_peek h2, withAnswer_ok]

theorem memRead16zp_of_peek {z : Byte} {s : State} {lo hi : Byte} (h1 : peek s (zext16 z) = some lo)
    (h2 : peek s (zext16 (z + 1)) = some hi) : memRead16zp z s = .ok (word lo hi, s) := by
  rw [memRead16zp, memRead_of_peek h1, withAnswer_ok, memRead_of_peek h2, withAnswer_ok]

/-- Resolving an operand changes no register and no byte of RAM or ROM (40_addressing_modes.md R109). -/
theorem resolve_ok {m : AddrMode} {s t : State} {r : Resolved} (h : resolve m s = .ok (r, t)) : SameButPeripherals s t := by
  cases m <;> simp only [resolve] at h
  case zp | zpx | zpy | abs | absx | absy => cases h; exact .refl _
  all_goals
    obtain ⟨w, s1, h1, h⟩ := withAnswer_eq_ok.1 h
    cases h
    first
    | exact memRead16_ok h1
    | exact memRead16zp_ok h1

/-- Reading an operand changes no register and no byte of RAM or ROM. -/
theorem readSource_ok {src : Source} {s t : State} {o : Operand} (h : readSource src s = .ok (o, t)) : SameButPeripherals s t := by
  cases src with
  | imm v => simp only [readSource] at h; cases h; exact .refl _
  | mem m =>
    obtain ⟨r, s1, h1, h⟩ := withAnswer_eq_ok.1 h
    obtain ⟨v, s2, h2, h⟩ := withAnswer_eq_ok.1 h
    cases h
    exact (resolve_ok h1).trans (memRead_ok h2)

/-- An operation made of a read and what follows fails with a read's error when both do. -/
theorem withAnswer_readError {α β : Type} {r : Access α} {f : α → State → Except Fault β} {s : State} {e : Fault}
    (h : withAnswer r f = .error e) (hr : r = .error e → ReadError s e)
    (hf : ∀ v t, r = .ok (v, t) → f v t = .error e → ReadError s e) : ReadError s e := by
  rcases withAnswer_eq_error.1 h with h | ⟨v, t, h1, h2⟩
  · exact hr h
  · exact hf v t h1 h2

/-- The errors of operand addressing are those of reads (60_exceptions.md R351). -/
theorem memRead16_error {a : Addr} {s : State} {e : Fault} (h : memRead16 a s = .error e) : ReadError s e :=
  withAnswer_readError h memRead_error fun _ _ h1 h =>
    withAnswer_readError h (fun h => (memRead_error h).congr (memRead_ok h1).2) fun _ _ _ h => nomatch h

theorem memRead16zp_error {z : Byte} {s : State} {e : Fault} (h : memRead16zp z s = .error e) : ReadError s e :=
  withAnswer_readError h memRead_error fun _ _ h1 h =>
    withAnswer_readError h (fun h => (memRead_error h).congr (memRead_ok h1).2) fun _ _ _ h => nomatch h

theorem resolve_error {m : AddrMode} {s : State} {e : Fault} (h : resolve m s = .error e) : ReadError s e := by
  cases m <;> simp only [resolve] at h
  case zp | zpx | zpy | abs | absx | absy => cases h
  all_goals
    first
    | exact withAnswer_readError h memRead16_error fun _ _ _ h => nomatch h
    | exact withAnswer_readError h memRead16zp_error fun _ _ _ h => nomatch h

theorem readSource_error {src : Source} {s : State} {e : Fault} (h : readSource src s = .error e) : ReadError s e := by
  cases src with
  | imm v => cases h
  | mem m =>
    exact withAnswer_readError h resolve_error fun _ _ h1 h =>
      withAnswer_readError h (fun h => (memRead_error h).congr (resolve_ok h1).2) fun _ _ _ h => nomatch h

/-- With every address mapped and no peripheral, an access that can only fail in reads answers. -/
theorem answers_of_readError {α : Type} {r : Access α} {s : State} (hc : Covered s) (hn : NoPeripheral s)
    (h : ∀ e, r = .error e → ReadError s e) : ∃ v t, r = .ok (v, t) := by
  cases r with
  | ok p => exact ⟨p.1, p.2, rfl⟩
  | error e =>
    obtain ⟨a, -, hl⟩ := (h e rfl).of_noPeripheral hn
    have := hc a
    rw [hl] at this
    cases this

/-! ## Cycles -/

@[simp] theorem cyclesOf_not_crossed (i : Instr) : cyclesOf i false = i.baseCycles := by simp [cyclesOf, pageCycle]

/-- The modes whose index can cross a page (40_addressing_modes.md R98, R99, R103). -/
theorem resolve_crossed {m : AddrMode} {s t : State} {r : Resolved} (h : resolve m s = .ok (r, t)) (hc : r.crossed = true) :
    m.tag ∈ [ModeTag.absx, .absy, .izy] := by
  cases m <;> simp only [resolve] at h
  case absx | absy | izy => simp [AddrMode.tag]
  all_goals
    first
    | cases h; cases hc
    | obtain ⟨w, s1, -, h⟩ := withAnswer_eq_ok.1 h; cases h; cases hc

theorem readSource_crossed {src : Source} {s t : State} {o : Operand} (h : readSource src s = .ok (o, t))
    (hc : o.crossed = true) : ∃ m, src = .mem m ∧ m.tag ∈ [ModeTag.absx, .absy, .izy] := by
  cases src with
  | imm v => cases h; cases hc
  | mem m =>
    obtain ⟨r, s1, h1, h⟩ := withAnswer_eq_ok.1 h
    obtain ⟨v, s2, h2, h⟩ := withAnswer_eq_ok.1 h
    cases h
    exact ⟨m, rfl, resolve_crossed h1 hc⟩

/-- The rows of R66 that pay for a crossing: the read-type instructions and the shifts in every mode that can cross. -/
theorem pays_of_row (i : Instr)
    (hm : i.mnemonic ∈ [Mnemonic.lda, .ldx, .ldy, .adc, .sbc, .and, .ora, .eor, .cmp, .cpx, .cpy, .bit, .asl, .lsr, .rol, .ror])
    (ht : i.mode.tag ∈ [ModeTag.absx, .absy, .izy]) : paysPageCycle Config.pagePenaltySet i = true := by
  have key : ∀ op : Byte,
      (decodeOp op 0 0).mnemonic ∈
        [Mnemonic.lda, .ldx, .ldy, .adc, .sbc, .and, .ora, .eor, .cmp, .cpx, .cpy, .bit, .asl, .lsr, .rol, .ror] →
      (decodeOp op 0 0).mode.tag ∈ [ModeTag.absx, .absy, .izy] →
      paysPageCycle Config.pagePenaltySet (decodeOp op 0 0) = true := by decide
  have h := decodeOp_opcode i 0 0
  have := key i.opcode (by rw [h.2.1]; exact hm) (by rw [h.2.2.1]; exact ht)
  rwa [paysPageCycle, h.2.1, h.2.2.1] at this

/-- The stores and the increments in memory pay nothing. -/
theorem not_pays_of_row (i : Instr)
    (hm : i.mnemonic ∈ [Mnemonic.sta, .stx, .sty, .stz, .inc, .dec, .tsb, .trb] ∨ ∃ n, i.mnemonic = .rmb n ∨ i.mnemonic = .smb n) :
    paysPageCycle Config.pagePenaltySet i = false := by
  unfold paysPageCycle
  rcases hm with hm | ⟨n, hm | hm⟩
  · simp only [List.mem_cons, List.not_mem_nil, or_false] at hm
    rcases hm with hm | hm | hm | hm | hm | hm | hm | hm <;> simp [hm, Config.pagePenaltySet]
  · simp [hm, Config.pagePenaltySet]
  · simp [hm, Config.pagePenaltySet]

/-! ## The fetch -/

theorem fetchOperand_ok {present : Bool} {a : Addr} {s t : State} {v : Byte} (h : fetchOperand present a s = .ok (v, t)) :
    SameButPeripherals s t := by
  unfold fetchOperand at h
  split at h
  · exact memRead_ok h
  · cases h; exact .refl _

theorem fetchOperand_error {present : Bool} {a : Addr} {s : State} {e : Fault} (h : fetchOperand present a s = .error e) :
    present = true ∧ memRead a s = .error e := by
  unfold fetchOperand at h
  split at h
  · rename_i hp; exact ⟨hp, h⟩
  · cases h

/-- A fetch that answers gives the instruction of the bytes at CP, and changes no register and no byte of RAM or ROM. -/
theorem fetch_ok {s t : State} {i : Instr} (h : fetch s = .ok (i, t)) :
    SameButPeripherals s t ∧ ∃ op b1 b2, i = decodeOp op b1 b2 ∧ (∃ s1, memRead s.cp s = .ok (op, s1)) := by
  obtain ⟨op, s1, h1, h⟩ := withAnswer_eq_ok.1 h
  obtain ⟨b1, s2, h2, h⟩ := withAnswer_eq_ok.1 h
  obtain ⟨b2, s3, h3, h⟩ := withAnswer_eq_ok.1 h
  cases h
  exact ⟨((memRead_ok h1).trans (fetchOperand_ok h2)).trans (fetchOperand_ok h3), op, b1, b2, rfl, s1, h1⟩

theorem fetch_error {s : State} {e : Fault} (h : fetch s = .error e) : ReadError s e :=
  withAnswer_readError h memRead_error fun _ _ h1 h =>
    withAnswer_readError h (fun h => (memRead_error (fetchOperand_error h).2).congr (memRead_ok h1).2) fun _ _ h2 h =>
      withAnswer_readError h
        (fun h => (memRead_error (fetchOperand_error h).2).congr ((fetchOperand_ok h2).2.trans (memRead_ok h1).2))
        fun _ _ _ h => nomatch h

/-! ## The stack -/

/-- A push that answers: one write at `0x0100 | SP`, then SP is one less (R300). -/
theorem push_ok {v : Byte} {s t : State} (h : push v s = .ok t) :
    ∃ s1, memWrite (stackAddr s.sp) v s = .ok s1 ∧ t = setReg .sp (s.sp - 1) s1 := by
  obtain ⟨s1, h1, h⟩ := withState_eq_ok.1 h
  cases h
  have hs : s1.sp = s.sp := by rw [(memWrite_frame h1).1]
  exact ⟨s1, h1, by rw [hs]⟩

theorem push_ram {v : Byte} {s : State} (h : IsRam s (stackAddr s.sp)) :
    push v s = .ok (setReg .sp (s.sp - 1) (setMem (Memory.write s.mem (stackAddr s.sp).toNat v) s)) := by
  simp [push, memWrite_ram h]

/-- What a push leaves: every register but SP, and every byte but the one pushed. -/
theorem push_frame {v : Byte} {s t : State} (h : push v s = .ok t) :
    t = { s with sp := s.sp - 1, regions := t.regions, mem := t.mem } ∧ fabricMap t = fabricMap s ∧
      ∀ b, b ≠ stackAddr s.sp → peek t b = peek s b := by
  obtain ⟨s1, h1, rfl⟩ := push_ok h
  obtain ⟨hs, hm⟩ := memWrite_frame h1
  refine ⟨?_, hm, fun b hb => ?_⟩
  · rw [hs]; rfl
  · exact (peek_congr (s := s1) (t := setReg .sp (s.sp - 1) s1) rfl rfl b).trans (memWrite_peek_other h1 hb)

/-- A pull that answers: SP is one more, then one read at `0x0100 | SP` (R300). -/
theorem pull_ok {v : Byte} {s t : State} (h : pull s = .ok (v, t)) :
    t = { s with sp := s.sp + 1, regions := t.regions } ∧ fabricMap t = fabricMap s ∧ t.mem = s.mem := by
  have h1 : SameButPeripherals (setReg .sp (s.sp + 1) s) t := memRead_ok h
  exact ⟨h1.1, h1.2, h1.mem⟩

theorem pull_of_peek {v : Byte} {s : State} (h : peek s (stackAddr (s.sp + 1)) = some v) :
    pull s = .ok (v, setReg .sp (s.sp + 1) s) :=
  memRead_of_peek ((peek_congr (s := s) (t := setReg .sp (s.sp + 1) s) rfl rfl _).trans h)

theorem push_error {v : Byte} {s : State} {e : Fault} (h : push v s = .error e) : WriteError s e := by
  rcases withState_eq_error.1 h with h | ⟨_, -, h⟩
  · exact memWrite_error h
  · cases h

theorem pull_error {s : State} {e : Fault} (h : pull s = .error e) : ReadError s e :=
  ReadError.congr (s := s) (t := setReg .sp (s.sp + 1) s) rfl (memRead_error h)

/-- Two bytes pushed: high at `0x0100 | SP`, low at `0x0100 | (SP - 1)`, SP two less (R281). -/
theorem pushWord_ok {w : Addr} {s t : State} (h : pushWord w s = .ok t) :
    t = { s with sp := s.sp - 2, regions := t.regions, mem := t.mem } ∧ fabricMap t = fabricMap s ∧
      ∀ b, b ≠ stackAddr s.sp → b ≠ stackAddr (s.sp - 1) → peek t b = peek s b := by
  obtain ⟨s1, h1, h2⟩ := withState_eq_ok.1 h
  obtain ⟨e1, m1, p1⟩ := push_frame h1
  obtain ⟨e2, m2, p2⟩ := push_frame h2
  have hsp : s1.sp = s.sp - 1 := by rw [e1]
  refine ⟨?_, m2.trans m1, fun b hb hc => ?_⟩
  · rw [e2, hsp, e1]
    simp [BitVec.sub_sub]
  · rw [p2 b (by rw [hsp]; exact hc), p1 b hb]

/-- Two bytes pulled, SP two more (R282). -/
theorem pullWord_ok {w : Addr} {s t : State} (h : pullWord s = .ok (w, t)) :
    t = { s with sp := s.sp + 2, regions := t.regions } ∧ fabricMap t = fabricMap s ∧ t.mem = s.mem := by
  obtain ⟨lo, s1, h1, h⟩ := withAnswer_eq_ok.1 h
  obtain ⟨hi, s2, h2, h⟩ := withAnswer_eq_ok.1 h
  cases h
  obtain ⟨e1, m1, p1⟩ := pull_ok h1
  obtain ⟨e2, m2, p2⟩ := pull_ok h2
  have hsp : s1.sp = s.sp + 1 := by rw [e1]
  refine ⟨?_, m2.trans m1, p2.trans p1⟩
  rw [e2, hsp, e1]
  simp [BitVec.add_assoc]

theorem pushWord_error {w : Addr} {s : State} {e : Fault} (h : pushWord w s = .error e) : WriteError s e := by
  rcases withState_eq_error.1 h with h | ⟨_, h1, h⟩
  · exact push_error h
  · exact (push_error h).congr (push_frame h1).2.1

theorem pullWord_error {s : State} {e : Fault} (h : pullWord s = .error e) : ReadError s e :=
  withAnswer_readError h pull_error fun _ _ h1 h =>
    withAnswer_readError h (fun h => (pull_error h).congr (pull_ok h1).2.1) fun _ _ _ h => nomatch h

/-! ## BRK's entry and RTI's return -/

/-- What BRK's entry leaves when it answers (R284): I set and D clear, SP three less, CP from the vector, and no byte
changed but the three pushed. -/
theorem takeBreak_ok {s t : State} (h : takeBreak s = .ok t) :
    t = { s with sp := s.sp - 3, p := { s.p with i := true, d := false }, cp := t.cp, regions := t.regions, mem := t.mem } ∧
      fabricMap t = fabricMap s ∧
      ∀ b, b ≠ stackAddr s.sp → b ≠ stackAddr (s.sp - 1) → b ≠ stackAddr (s.sp - 2) → peek t b = peek s b := by
  obtain ⟨s1, h1, h⟩ := withState_eq_ok.1 h
  obtain ⟨s2, h2, h⟩ := withState_eq_ok.1 h
  obtain ⟨w, s4, h4, h⟩ := withAnswer_eq_ok.1 h
  cases h
  obtain ⟨e1, m1, p1⟩ := pushWord_ok h1
  obtain ⟨e2, m2, p2⟩ := push_frame h2
  have k4 := memRead16_ok h4
  have hsp : s1.sp = s.sp - 2 := by rw [e1]
  refine ⟨?_, (k4.2.trans m2).trans m1, fun b hb hc hd => ?_⟩
  · rw [k4.1, e2, hsp, e1]
    simp [setCp, setStatus, BitVec.sub_sub]
  · refine (peek_congr (s := s4) (t := setCp w s4) rfl rfl b).trans ?_
    rw [k4.peek b]
    refine (peek_congr (s := s2) (t := setStatus _ s2) rfl rfl b).trans ?_
    rw [p2 b (by rw [hsp]; exact hd), p1 b hb hc]

/-- What RTI's return leaves when it answers (R283): SP three more, P and CP from the stack, no byte changed. -/
theorem returnFromBreak_ok {s t : State} (h : returnFromBreak s = .ok t) :
    ∃ w, t = { s with sp := s.sp + 3, p := Status.pulled Config.pullB w s.p, cp := t.cp, regions := t.regions } ∧
      fabricMap t = fabricMap s ∧ t.mem = s.mem := by
  obtain ⟨w, s1, h1, h⟩ := withAnswer_eq_ok.1 h
  obtain ⟨target, s3, h3, h⟩ := withAnswer_eq_ok.1 h
  cases h
  obtain ⟨e1, m1, p1⟩ := pull_ok h1
  obtain ⟨e3, m3, p3⟩ := pullWord_ok h3
  refine ⟨w, ?_, m3.trans m1, p3.trans p1⟩
  rw [e3, e1]
  simp [setCp, setStatus, BitVec.add_assoc]

theorem takeBreak_error {s : State} {e : Fault} (h : takeBreak s = .error e) : WriteError s e := by
  rcases withState_eq_error.1 h with h | ⟨s1, h1, h⟩
  · exact pushWord_error h
  · have m1 := (pushWord_ok h1).2.1
    rcases withState_eq_error.1 h with h | ⟨s2, h2, h⟩
    · exact (push_error h).congr m1
    · have m2 := (push_frame h2).2.1
      rcases withAnswer_eq_error.1 h with h | ⟨_, _, -, h⟩
      · exact .read (((memRead16_error h).congr (by rfl : fabricMap _ = fabricMap s2)).congr (m2.trans m1))
      · cases h

theorem returnFromBreak_error {s : State} {e : Fault} (h : returnFromBreak s = .error e) : ReadError s e :=
  withAnswer_readError h pull_error fun _ s1 h1 h =>
    withAnswer_readError h
      (fun h => ((pullWord_error h).congr (by rfl : fabricMap _ = fabricMap s1)).congr (pull_ok h1).2.1) fun _ _ _ h => nomatch h

end Sys2Proof.Machine
end

