-- ==== Sys2Proof/Laws/Shape.lean ====
section
/-! SUPPORT. Every instruction is one of 27 shapes over the shared meanings; `exec_eq_shape` says so once, so that a proof
about all instructions is a case split over shapes and not over 256 constructors. The mnemonic and the mode of
30_encoding.md R66 decide the shape. -/

namespace Sys2Proof.Machine

inductive Shape where
  | load (r : Reg) (src : Source)
  | store (v : State → Byte) (m : AddrMode)
  | transfer (src dst : Reg)
  | toStackPointer
  | arith (f : Status → Byte → Byte → ArithResult) (src : Source)
  | logic (f : Byte → Byte → Byte) (src : Source)
  | bitTest (src : Source)
  | testAndWrite (f : Byte → Byte → Byte) (m : AddrMode)
  | modifyBit (f : Byte → Byte) (m : AddrMode)
  | shiftAcc (f : Bool → Byte → ShiftResult)
  | shiftMem (f : Bool → Byte → ShiftResult) (m : AddrMode)
  | stepReg (r : Reg) (f : Byte → Byte)
  | stepMem (f : Byte → Byte) (m : AddrMode)
  | compare (r : Reg) (src : Source)
  | branch (cond : Status → Bool) (rel8 : Byte)
  | bitBranch (n : Nat) (want : Bool) (zp8 rel8 : Byte)
  | jump (m : AddrMode)
  | call (target : Addr)
  | fromSubroutine
  | softBreak
  | fromBreak
  | pushByte (v : State → Byte)
  | pullReg (r : Reg)
  | pullStatus
  | writeStatus (f : Status → Status)
  | noOperation
  | stop
  | unknown (op : Byte)

/-- The meaning of a shape, with the cycles of the instruction. -/
def Shape.run (i : Instr) (s : State) : Shape → Result
  | .load r src => Machine.load r src (cyclesOf i) s
  | .store v m => Machine.store (v s) m (cyclesOf i) s
  | .transfer src dst => Machine.transfer src dst i.baseCycles s
  | .toStackPointer => .next (advance 1 i.baseCycles (setReg .sp s.x s))
  | .arith f src => Machine.arith f src (cyclesOf i) s
  | .logic f src => Machine.logic f src (cyclesOf i) s
  | .bitTest src => Machine.bitTest src (cyclesOf i) s
  | .testAndWrite f m => Machine.testAndWrite f m (cyclesOf i) s
  | .modifyBit f m => Machine.modifyBit f m (cyclesOf i) s
  | .shiftAcc f => Machine.shiftAcc f i.baseCycles s
  | .shiftMem f m => Machine.shiftMem f m (cyclesOf i) s
  | .stepReg r f => Machine.stepReg r f i.baseCycles s
  | .stepMem f m => Machine.stepMem f m (cyclesOf i) s
  | .compare r src => compareReg r src (cyclesOf i) s
  | .branch cond rel8 => Machine.branch (cond s.p) rel8 i.baseCycles s
  | .bitBranch n want zp8 rel8 => Machine.bitBranch n want zp8 rel8 i.baseCycles s
  | .jump m => Machine.jump m i.baseCycles s
  | .call target => callSubroutine target i.baseCycles s
  | .fromSubroutine => returnFromSubroutine i.baseCycles s
  | .softBreak => breakTrap i.baseCycles s
  | .fromBreak => returnTrap i.baseCycles s
  | .pushByte v => Machine.pushByte (v s) i.baseCycles s
  | .pullReg r => Machine.pullReg r i.baseCycles s
  | .pullStatus => Machine.pullStatus i.baseCycles s
  | .writeStatus f => Machine.writeStatus (f s.p) i.baseCycles s
  | .noOperation => Machine.noOperation 1 i.baseCycles s
  | .stop => Machine.stop i.baseCycles s
  | .unknown op => .fault (.unknownOpcode op s.cp)

/-- A shape with a source operand, from a mode. -/
def withSource (op : Byte) (f : Source → Shape) (mode : Mode) : Shape :=
  match modeSource mode with
  | some src => f src
  | none => .unknown op

/-- A shape with an address, from a mode. -/
def withAddress (op : Byte) (f : AddrMode → Shape) (mode : Mode) : Shape :=
  match modeAddress mode with
  | some m => f m
  | none => .unknown op

/-- A shape with a memory form and an accumulator form, from a mode. -/
def withAccumulator (acc : Shape) (f : AddrMode → Shape) (mode : Mode) : Shape :=
  match modeAddress mode with
  | some m => f m
  | none => acc

/-- A relative branch, from a mode. -/
def withOffset (op : Byte) (cond : Status → Bool) (mode : Mode) : Shape :=
  match mode with
  | .rel rel8 => .branch cond rel8
  | .zprel _ _ => .unknown op
  | .imm _ => .unknown op
  | .mem _ => .unknown op
  | .imp => .unknown op
  | .acc => .unknown op
  | .illegal => .unknown op

/-- A branch on a bit, from a mode. -/
def withBit (op : Byte) (n : Nat) (want : Bool) (mode : Mode) : Shape :=
  match mode with
  | .zprel zp8 rel8 => .bitBranch n want zp8 rel8
  | .rel _ => .unknown op
  | .imm _ => .unknown op
  | .mem _ => .unknown op
  | .imp => .unknown op
  | .acc => .unknown op
  | .illegal => .unknown op

/-- JSR's target, from a mode. -/
def withTarget (op : Byte) (mode : Mode) : Shape :=
  match modeAddress mode with
  | some (.abs lo hi) => .call (word lo hi)
  | some _ => .unknown op
  | none => .unknown op

/-- The shape a row of R66 has: its mnemonic decides, its mode gives the operand. -/
def shapeOf (op : Byte) (mode : Mode) : Mnemonic → Shape
  | .lda => withSource op (.load .a) mode
  | .ldx => withSource op (.load .x) mode
  | .ldy => withSource op (.load .y) mode
  | .sta => withAddress op (.store fun s => s.a) mode
  | .stx => withAddress op (.store fun s => s.x) mode
  | .sty => withAddress op (.store fun s => s.y) mode
  | .stz => withAddress op (.store fun _ => 0x00) mode
  | .tax => .transfer .a .x
  | .tay => .transfer .a .y
  | .txa => .transfer .x .a
  | .tya => .transfer .y .a
  | .tsx => .transfer .sp .x
  | .txs => .toStackPointer
  | .adc => withSource op (.arith adcResult) mode
  | .sbc => withSource op (.arith sbcResult) mode
  | .and => withSource op (.logic fun a m => a &&& m) mode
  | .ora => withSource op (.logic fun a m => a ||| m) mode
  | .eor => withSource op (.logic fun a m => a ^^^ m) mode
  | .bit => withSource op .bitTest mode
  | .tsb => withAddress op (.testAndWrite fun a v => v ||| a) mode
  | .trb => withAddress op (.testAndWrite fun a v => v &&& (a ^^^ 0xFF)) mode
  | .rmb n => withAddress op (.modifyBit (clearBit n)) mode
  | .smb n => withAddress op (.modifyBit (raiseBit n)) mode
  | .asl => withAccumulator (.shiftAcc aslByte) (.shiftMem aslByte) mode
  | .lsr => withAccumulator (.shiftAcc lsrByte) (.shiftMem lsrByte) mode
  | .rol => withAccumulator (.shiftAcc rolByte) (.shiftMem rolByte) mode
  | .ror => withAccumulator (.shiftAcc rorByte) (.shiftMem rorByte) mode
  | .inc => withAccumulator (.stepReg .a increment) (.stepMem increment) mode
  | .dec => withAccumulator (.stepReg .a decrement) (.stepMem decrement) mode
  | .inx => .stepReg .x increment
  | .iny => .stepReg .y increment
  | .dex => .stepReg .x decrement
  | .dey => .stepReg .y decrement
  | .cmp => withSource op (.compare .a) mode
  | .cpx => withSource op (.compare .x) mode
  | .cpy => withSource op (.compare .y) mode
  | .bpl => withOffset op (fun p => !p.n) mode
  | .bmi => withOffset op (fun p => p.n) mode
  | .bvc => withOffset op (fun p => !p.v) mode
  | .bvs => withOffset op (fun p => p.v) mode
  | .bcc => withOffset op (fun p => !p.c) mode
  | .bcs => withOffset op (fun p => p.c) mode
  | .bne => withOffset op (fun p => !p.z) mode
  | .beq => withOffset op (fun p => p.z) mode
  | .bra => withOffset op (fun _ => true) mode
  | .bbr n => withBit op n false mode
  | .bbs n => withBit op n true mode
  | .jmp => withAddress op .jump mode
  | .jsr => withTarget op mode
  | .rts => .fromSubroutine
  | .brk => .softBreak
  | .rti => .fromBreak
  | .pha => .pushByte fun s => s.a
  | .phx => .pushByte fun s => s.x
  | .phy => .pushByte fun s => s.y
  | .php => .pushByte fun s => s.p.pushed
  | .pla => .pullReg .a
  | .plx => .pullReg .x
  | .ply => .pullReg .y
  | .plp => .pullStatus
  | .clc => .writeStatus fun p => { p with c := false }
  | .sec => .writeStatus fun p => { p with c := true }
  | .cli => .writeStatus fun p => { p with i := false }
  | .sei => .writeStatus fun p => { p with i := true }
  | .cld => .writeStatus fun p => { p with d := false }
  | .sed => .writeStatus fun p => { p with d := true }
  | .clv => .writeStatus fun p => { p with v := false }
  | .nop => .noOperation
  | .stp => .stop
  | .undefined op' => .unknown op'
  | .wai => .unknown 0xCB

/-- The shape of an instruction. -/
def shape (i : Instr) : Shape := shapeOf i.opcode i.mode i.mnemonic

/-- The meaning of every instruction is its shape's. -/
theorem exec_eq_shape (i : Instr) (s : State) : exec i s = (shape i).run i s := by
  cases i <;> rfl

end Sys2Proof.Machine
end

