-- ==== Sys2Proof/Laws/Meanings.lean ====
section
/-! SUPPORT. One lemma per shared meaning: when it answers a next state, and which. The statements are equivalences, so
they also say when it completes. -/

namespace Sys2Proof.Machine

theorem load_next {r : Reg} {src : Source} {c : Bool → Nat} {s t : State} :
    load r src c s = .next t ↔ ∃ o s1, readSource src s = .ok (o, s1) ∧
      t = advance src.length (c o.crossed) (setNZ o.value (setReg r o.value s1)) := by
  simp [load, withAnswer_eq_ok, @eq_comm _ t]

theorem store_next {v : Byte} {m : AddrMode} {c : Bool → Nat} {s t : State} :
    store v m c s = .next t ↔ ∃ r s1 s2, resolve m s = .ok (r, s1) ∧ memWrite r.ea v s1 = .ok s2 ∧
      t = advance (modeLength m) (c r.crossed) s2 := by
  simp [store, withAnswer_eq_ok, withState_eq_ok, @eq_comm _ t]

theorem arith_next {f : Status → Byte → Byte → ArithResult} {src : Source} {c : Bool → Nat} {s t : State} :
    arith f src c s = .next t ↔ ∃ o s1, readSource src s = .ok (o, s1) ∧
      t = advance src.length (c o.crossed + decimalCycle s1.p)
        (setStatus (Status.setArith (f s1.p s1.a o.value) s1.p) (setReg .a (f s1.p s1.a o.value).result s1)) := by
  simp [arith, withAnswer_eq_ok, @eq_comm _ t]

theorem logic_next {f : Byte → Byte → Byte} {src : Source} {c : Bool → Nat} {s t : State} :
    logic f src c s = .next t ↔ ∃ o s1, readSource src s = .ok (o, s1) ∧
      t = advance src.length (c o.crossed) (setNZ (f s1.a o.value) (setReg .a (f s1.a o.value) s1)) := by
  simp [logic, withAnswer_eq_ok, @eq_comm _ t]

theorem bitTest_next {src : Source} {c : Bool → Nat} {s t : State} :
    bitTest src c s = .next t ↔ ∃ o s1, readSource src s = .ok (o, s1) ∧
      t = advance src.length (c o.crossed)
        (setStatus (Status.bitTest Config.bitFlags src.isImmediate s1.a o.value s1.p) s1) := by
  simp [bitTest, withAnswer_eq_ok, @eq_comm _ t]

theorem compareReg_next {r : Reg} {src : Source} {c : Bool → Nat} {s t : State} :
    compareReg r src c s = .next t ↔ ∃ o s1, readSource src s = .ok (o, s1) ∧
      t = advance src.length (c o.crossed) (setStatus (Status.compare (s1.reg r) o.value s1.p) s1) := by
  simp [compareReg, withAnswer_eq_ok, @eq_comm _ t]

theorem testAndWrite_next {f : Byte → Byte → Byte} {m : AddrMode} {c : Bool → Nat} {s t : State} :
    testAndWrite f m c s = .next t ↔ ∃ r s1 v s2 s3, resolve m s = .ok (r, s1) ∧ memRead r.ea s1 = .ok (v, s2) ∧
      memWrite r.ea (f s2.a v) (setStatus (Status.testZ s2.a v s2.p) s2) = .ok s3 ∧ t = advance (modeLength m) (c r.crossed) s3 := by
  simp [testAndWrite, withAnswer_eq_ok, withState_eq_ok, @eq_comm _ t]

theorem modifyBit_next {f : Byte → Byte} {m : AddrMode} {c : Bool → Nat} {s t : State} :
    modifyBit f m c s = .next t ↔ ∃ r s1 v s2 s3, resolve m s = .ok (r, s1) ∧ memRead r.ea s1 = .ok (v, s2) ∧
      memWrite r.ea (f v) s2 = .ok s3 ∧ t = advance (modeLength m) (c r.crossed) s3 := by
  simp [modifyBit, withAnswer_eq_ok, withState_eq_ok, @eq_comm _ t]

theorem shiftMem_next {f : Bool → Byte → ShiftResult} {m : AddrMode} {c : Bool → Nat} {s t : State} :
    shiftMem f m c s = .next t ↔ ∃ r s1 v s2 s3, resolve m s = .ok (r, s1) ∧ memRead r.ea s1 = .ok (v, s2) ∧
      memWrite r.ea (f s2.p.c v).result s2 = .ok s3 ∧
      t = advance (modeLength m) (c r.crossed) (setStatus (Status.setShift (f s2.p.c v) s3.p) s3) := by
  simp [shiftMem, withAnswer_eq_ok, withState_eq_ok, @eq_comm _ t]

theorem stepMem_next {f : Byte → Byte} {m : AddrMode} {c : Bool → Nat} {s t : State} :
    stepMem f m c s = .next t ↔ ∃ r s1 v s2 s3, resolve m s = .ok (r, s1) ∧ memRead r.ea s1 = .ok (v, s2) ∧
      memWrite r.ea (f v) s2 = .ok s3 ∧ t = advance (modeLength m) (c r.crossed) (setNZ (f v) s3) := by
  simp [stepMem, withAnswer_eq_ok, withState_eq_ok, @eq_comm _ t]

theorem bitBranch_next {n : Nat} {want : Bool} {zp8 rel8 : Byte} {base : Nat} {s t : State} :
    bitBranch n want zp8 rel8 base s = .next t ↔ ∃ v s1, memRead (zext16 zp8) s = .ok (v, s1) ∧
      t = branchEnd (v.getLsbD n == want) 3 (zprelTarget s1.cp rel8) base s1 := by
  simp [bitBranch, withAnswer_eq_ok, @eq_comm _ t]

theorem jump_next {m : AddrMode} {base : Nat} {s t : State} :
    jump m base s = .next t ↔ ∃ r s1, resolve m s = .ok (r, s1) ∧ t = jumpTo r.ea base s1 := by
  simp [jump, withAnswer_eq_ok, @eq_comm _ t]

theorem callSubroutine_next {target : Addr} {base : Nat} {s t : State} :
    callSubroutine target base s = .next t ↔ ∃ s1, pushWord (offsetAddr s.cp 2) s = .ok s1 ∧ t = jumpTo target base s1 := by
  simp [callSubroutine, withState_eq_ok, @eq_comm _ t]

theorem returnFromSubroutine_next {base : Nat} {s t : State} :
    returnFromSubroutine base s = .next t ↔ ∃ w s1, pullWord s = .ok (w, s1) ∧ t = jumpTo (w + 1) base s1 := by
  simp [returnFromSubroutine, withAnswer_eq_ok, @eq_comm _ t]

theorem pushByte_next {v : Byte} {base : Nat} {s t : State} :
    pushByte v base s = .next t ↔ ∃ s1, push v s = .ok s1 ∧ t = advance 1 base s1 := by
  simp [pushByte, withState_eq_ok, @eq_comm _ t]

theorem pullReg_next {r : Reg} {base : Nat} {s t : State} :
    pullReg r base s = .next t ↔ ∃ v s1, pull s = .ok (v, s1) ∧ t = advance 1 base (setNZ v (setReg r v s1)) := by
  simp [pullReg, withAnswer_eq_ok, @eq_comm _ t]

theorem pullStatus_next {base : Nat} {s t : State} :
    pullStatus base s = .next t ↔ ∃ w s1, pull s = .ok (w, s1) ∧
      t = advance 1 base (setStatus (Status.pulled Config.pullB w s1.p) s1) := by
  simp [pullStatus, withAnswer_eq_ok, @eq_comm _ t]

theorem breakTrap_next {base : Nat} {s t : State} :
    breakTrap base s = .next t ↔ ∃ s1, takeBreak s = .ok s1 ∧ t = addCycles base s1 := by
  simp [breakTrap, withState_eq_ok, @eq_comm _ t]

theorem returnTrap_next {base : Nat} {s t : State} :
    returnTrap base s = .next t ↔ ∃ s1, returnFromBreak s = .ok s1 ∧ t = addCycles base s1 := by
  simp [returnTrap, withState_eq_ok, @eq_comm _ t]

/-- A step that answers: the fetch answered, and then the instruction. -/
theorem step_next {s t : State} : step s = .next t ↔ ∃ i s1, fetch s = .ok (i, s1) ∧ exec i s1 = .next t := by
  unfold step
  cases h : fetch s with
  | error e => simp
  | ok p =>
    obtain ⟨i, s1⟩ := p
    exact ⟨fun h => ⟨i, s1, rfl, h⟩, fun ⟨_, _, h, k⟩ => by cases h; exact k⟩

/-- A step that fails: the fetch failed, or the instruction did. -/
theorem step_fault {s : State} {e : Fault} :
    step s = .fault e ↔ fetch s = .error e ∨ ∃ i s1, fetch s = .ok (i, s1) ∧ exec i s1 = .fault e := by
  unfold step
  cases h : fetch s with
  | error d => simp
  | ok p =>
    obtain ⟨i, s1⟩ := p
    exact ⟨fun h => .inr ⟨i, s1, rfl, h⟩, fun h => h.elim (fun h => nomatch h) fun ⟨_, _, h, k⟩ => by cases h; exact k⟩

end Sys2Proof.Machine
end

