-- ==== Sys2Proof/Laws/Frame.lean ====
section
/-! SUPPORT. What every instruction that answers leaves of the fabric and the store: the map, every byte that is not RAM,
the store's canonical form and its backing. One relation, closed under chaining, and one lemma that every instruction
keeps to it. -/

namespace Sys2Proof.Machine

/-- Every listed address is a RAM's or a ROM's, by the map alone. -/
theorem storeBacked_iff (s : State) : storeBacked s = true ↔
    ∀ c ∈ s.mem, kindAt s (BitVec.ofNat 16 c.1) = some .ram ∨ kindAt s (BitVec.ofNat 16 c.1) = some .rom := by
  have key : ∀ a, (match lookup s.regions a with | none => false | some r => r.stores) = true ↔
      kindAt s a = some .ram ∨ kindAt s a = some .rom := by
    intro a
    unfold kindAt
    rw [lookup_fabricMap]
    cases h : lookup s.regions a with
    | none => simp
    | some r =>
      obtain ⟨kind, base, len⟩ := r
      cases kind <;> simp [Region.withPrivateState, Region.stores]
  simp only [storeBacked, List.all_eq_true]
  exact ⟨fun h c hc => (key _).1 (h c hc), fun h c hc => (key _).2 (h c hc)⟩

/-- What accesses can lead to. -/
structure FabricStep (s t : State) : Prop where
  map : fabricMap t = fabricMap s
  fixed : ∀ a, ¬ IsRam s a → peek t a = peek s a
  wf : Memory.wf s.mem = true → Memory.wf t.mem = true
  backed : storeBacked s = true → storeBacked t = true

theorem FabricStep.refl (s : State) : FabricStep s s := ⟨rfl, fun _ _ => rfl, id, id⟩

theorem FabricStep.trans {s t u : State} (h : FabricStep s t) (k : FabricStep t u) : FabricStep s u where
  map := k.map.trans h.map
  fixed a ha := (k.fixed a fun hr => ha ((isRam_congr h.map a).1 hr)).trans (h.fixed a ha)
  wf hw := k.wf (h.wf hw)
  backed hb := k.backed (h.backed hb)

/-- A change of registers alone is one. -/
theorem FabricStep.of_same {s t : State} (hr : fabricMap t = fabricMap s) (hm : t.mem = s.mem) : FabricStep s t where
  map := hr
  fixed a _ := peek_congr hr hm a
  wf hw := by rw [hm]; exact hw
  backed hb := by
    rw [storeBacked_iff] at hb ⊢
    rw [hm]
    simpa only [kindAt, hr] using hb

theorem SameButPeripherals.fabricStep {s t : State} (h : SameButPeripherals s t) : FabricStep s t := .of_same h.2 h.mem

theorem memWrite_fabricStep {a : Addr} {v : Byte} {s t : State} (h : memWrite a v s = .ok t) : FabricStep s t := by
  rcases memWrite_ok h with ⟨hr, he⟩ | ⟨-, hs⟩
  · refine ⟨by rw [he]; rfl, fun b hb => memWrite_peek_other h fun hba => hb (hba ▸ hr), fun hw => memWrite_wf hw h, fun hb => ?_⟩
    rw [storeBacked_iff] at hb ⊢
    intro c hc
    have hk : ∀ b, kindAt t b = kindAt s b := fun b => by rw [he]; rfl
    rw [hk]
    rw [he] at hc
    rcases Memory.mem_write hc with h1 | h1
    · rw [h1]
      have ha : BitVec.ofNat 16 a.toNat = a := by simp
      rw [ha]
      exact .inl ((isRam_iff s a).1 hr)
    · exact hb c h1
  · exact hs.fabricStep

theorem push_fabricStep {v : Byte} {s t : State} (h : push v s = .ok t) : FabricStep s t := by
  obtain ⟨s1, h1, rfl⟩ := push_ok h
  exact (memWrite_fabricStep h1).trans (.of_same rfl rfl)

theorem pushWord_fabricStep {w : Addr} {s t : State} (h : pushWord w s = .ok t) : FabricStep s t := by
  obtain ⟨s1, h1, h2⟩ := withState_eq_ok.1 h
  exact (push_fabricStep h1).trans (push_fabricStep h2)

theorem takeBreak_fabricStep {s t : State} (h : takeBreak s = .ok t) : FabricStep s t := by
  obtain ⟨s1, h1, h⟩ := withState_eq_ok.1 h
  obtain ⟨s2, h2, h⟩ := withState_eq_ok.1 h
  obtain ⟨w, s4, h4, h⟩ := withAnswer_eq_ok.1 h
  cases h
  have h3 : FabricStep s2 (setStatus { s2.p with i := true, d := false } s2) := .of_same rfl rfl
  exact (((pushWord_fabricStep h1).trans (push_fabricStep h2)).trans h3).trans
    ((memRead16_ok h4).fabricStep.trans (.of_same rfl rfl))

/-- Every instruction that answers leaves the fabric's map, the bytes that are not RAM, and the store's form. -/
theorem exec_fabricStep {i : Instr} {s t : State} (h : exec i s = .next t) : FabricStep s t := by
  rw [exec_eq_shape] at h
  cases hs : shape i with
  | load r src =>
    rw [hs] at h
    obtain ⟨o, s1, h1, rfl⟩ := load_next.1 h
    exact (readSource_ok h1).fabricStep.trans (.of_same (by cases r <;> rfl) (by simp))
  | store v m =>
    rw [hs] at h
    obtain ⟨r, s1, s2, h1, h2, rfl⟩ := store_next.1 h
    exact ((resolve_ok h1).fabricStep.trans (memWrite_fabricStep h2)).trans (.of_same rfl rfl)
  | transfer src dst =>
    rw [hs] at h; cases h
    exact .of_same (by cases dst <;> rfl) (by simp)
  | toStackPointer =>
    rw [hs] at h; cases h
    exact .of_same rfl rfl
  | arith f src =>
    rw [hs] at h
    obtain ⟨o, s1, h1, rfl⟩ := arith_next.1 h
    exact (readSource_ok h1).fabricStep.trans (.of_same rfl rfl)
  | logic f src =>
    rw [hs] at h
    obtain ⟨o, s1, h1, rfl⟩ := logic_next.1 h
    exact (readSource_ok h1).fabricStep.trans (.of_same rfl rfl)
  | bitTest src =>
    rw [hs] at h
    obtain ⟨o, s1, h1, rfl⟩ := bitTest_next.1 h
    exact (readSource_ok h1).fabricStep.trans (.of_same rfl rfl)
  | testAndWrite f m =>
    rw [hs] at h
    obtain ⟨r, s1, v, s2, s3, h1, h2, h3, rfl⟩ := testAndWrite_next.1 h
    have hz : FabricStep s2 (setStatus (Status.testZ s2.a v s2.p) s2) := .of_same rfl rfl
    exact (((resolve_ok h1).fabricStep.trans (memRead_ok h2).fabricStep).trans hz).trans
      ((memWrite_fabricStep h3).trans (.of_same rfl rfl))
  | modifyBit f m =>
    rw [hs] at h
    obtain ⟨r, s1, v, s2, s3, h1, h2, h3, rfl⟩ := modifyBit_next.1 h
    exact ((resolve_ok h1).fabricStep.trans (memRead_ok h2).fabricStep).trans ((memWrite_fabricStep h3).trans (.of_same rfl rfl))
  | shiftAcc f =>
    rw [hs] at h; cases h
    exact .of_same rfl rfl
  | shiftMem f m =>
    rw [hs] at h
    obtain ⟨r, s1, v, s2, s3, h1, h2, h3, rfl⟩ := shiftMem_next.1 h
    exact ((resolve_ok h1).fabricStep.trans (memRead_ok h2).fabricStep).trans ((memWrite_fabricStep h3).trans (.of_same rfl rfl))
  | stepReg r f =>
    rw [hs] at h; cases h
    exact .of_same (by cases r <;> rfl) (by simp)
  | stepMem f m =>
    rw [hs] at h
    obtain ⟨r, s1, v, s2, s3, h1, h2, h3, rfl⟩ := stepMem_next.1 h
    exact ((resolve_ok h1).fabricStep.trans (memRead_ok h2).fabricStep).trans ((memWrite_fabricStep h3).trans (.of_same rfl rfl))
  | compare r src =>
    rw [hs] at h
    obtain ⟨o, s1, h1, rfl⟩ := compareReg_next.1 h
    exact (readSource_ok h1).fabricStep.trans (.of_same rfl rfl)
  | branch cond rel8 =>
    rw [hs] at h; cases h
    unfold branchEnd
    split <;> exact .of_same rfl rfl
  | bitBranch n want zp8 rel8 =>
    rw [hs] at h
    obtain ⟨v, s1, h1, rfl⟩ := bitBranch_next.1 h
    refine (memRead_ok h1).fabricStep.trans ?_
    unfold branchEnd
    split <;> exact .of_same rfl rfl
  | jump m =>
    rw [hs] at h
    obtain ⟨r, s1, h1, rfl⟩ := jump_next.1 h
    exact (resolve_ok h1).fabricStep.trans (.of_same rfl rfl)
  | call target =>
    rw [hs] at h
    obtain ⟨s1, h1, rfl⟩ := callSubroutine_next.1 h
    exact (pushWord_fabricStep h1).trans (.of_same rfl rfl)
  | fromSubroutine =>
    rw [hs] at h
    obtain ⟨w, s1, h1, rfl⟩ := returnFromSubroutine_next.1 h
    exact .of_same (pullWord_ok h1).2.1 (pullWord_ok h1).2.2
  | softBreak =>
    rw [hs] at h
    obtain ⟨s1, h1, rfl⟩ := breakTrap_next.1 h
    exact (takeBreak_fabricStep h1).trans (.of_same rfl rfl)
  | fromBreak =>
    rw [hs] at h
    obtain ⟨s1, h1, rfl⟩ := returnTrap_next.1 h
    obtain ⟨w, -, h2, h3⟩ := returnFromBreak_ok h1
    exact .of_same h2 h3
  | pushByte v =>
    rw [hs] at h
    obtain ⟨s1, h1, rfl⟩ := pushByte_next.1 h
    exact (push_fabricStep h1).trans (.of_same rfl rfl)
  | pullReg r =>
    rw [hs] at h
    obtain ⟨v, s1, h1, rfl⟩ := pullReg_next.1 h
    exact .of_same ((by cases r <;> rfl : _ = fabricMap s1).trans (pull_ok h1).2.1) (by simp [(pull_ok h1).2.2])
  | pullStatus =>
    rw [hs] at h
    obtain ⟨v, s1, h1, rfl⟩ := pullStatus_next.1 h
    exact .of_same (pull_ok h1).2.1 (pull_ok h1).2.2
  | writeStatus f =>
    rw [hs] at h; cases h
    exact .of_same rfl rfl
  | noOperation =>
    rw [hs] at h; cases h
    exact .of_same rfl rfl
  | stop =>
    rw [hs] at h; cases h
    exact .of_same rfl rfl
  | unknown op => rw [hs] at h; cases h

/-- So does every step that answers. -/
theorem step_fabricStep {s t : State} (h : step s = .next t) : FabricStep s t := by
  obtain ⟨i, s1, h1, h2⟩ := step_next.1 h
  exact (fetch_ok h1).1.fabricStep.trans (exec_fabricStep h2)

end Sys2Proof.Machine
end

