-- ==== Sys2Proof/Laws/PerInstr.lean ====
section
/-! SUPPORT. Statements made of every instruction, one lemma a constructor (LAWS.json). -/

open Sys2Proof

/-- 30_encoding.md R60, R61: the opcode byte alone gives the length, and the encoder writes that many bytes. -/
def Sys2Proof.Laws.EncodedShape.Statement (i : Instr) : Prop :=
  opcodeLength i.opcode = i.length ∧ (encode i).length = i.length

theorem Sys2Proof.Laws.EncodedShape.of (i : Instr) : Sys2Proof.Laws.EncodedShape.Statement i :=
  ⟨opcodeLength_opcode i, encode_length i⟩

namespace Sys2Proof.Laws.EncodedShape

theorem brk : Statement .brk := of _
theorem oraIzx (zp8 : Byte) : Statement (.oraIzx zp8) := of _
theorem undefined02 : Statement .undefined02 := of _
theorem undefined03 : Statement .undefined03 := of _
theorem tsbZp (zp8 : Byte) : Statement (.tsbZp zp8) := of _
theorem oraZp (zp8 : Byte) : Statement (.oraZp zp8) := of _
theorem aslZp (zp8 : Byte) : Statement (.aslZp zp8) := of _
theorem rmb0 (zp8 : Byte) : Statement (.rmb0 zp8) := of _
theorem php : Statement .php := of _
theorem oraImm (imm8 : Byte) : Statement (.oraImm imm8) := of _
theorem aslAcc : Statement .aslAcc := of _
theorem undefined0B : Statement .undefined0B := of _
theorem tsbAbs (lo : Byte) (hi : Byte) : Statement (.tsbAbs lo hi) := of _
theorem oraAbs (lo : Byte) (hi : Byte) : Statement (.oraAbs lo hi) := of _
theorem aslAbs (lo : Byte) (hi : Byte) : Statement (.aslAbs lo hi) := of _
theorem bbr0 (zp8 : Byte) (rel8 : Byte) : Statement (.bbr0 zp8 rel8) := of _
theorem bpl (rel8 : Byte) : Statement (.bpl rel8) := of _
theorem oraIzy (zp8 : Byte) : Statement (.oraIzy zp8) := of _
theorem oraIzp (zp8 : Byte) : Statement (.oraIzp zp8) := of _
theorem undefined13 : Statement .undefined13 := of _
theorem trbZp (zp8 : Byte) : Statement (.trbZp zp8) := of _
theorem oraZpx (zp8 : Byte) : Statement (.oraZpx zp8) := of _
theorem aslZpx (zp8 : Byte) : Statement (.aslZpx zp8) := of _
theorem rmb1 (zp8 : Byte) : Statement (.rmb1 zp8) := of _
theorem clc : Statement .clc := of _
theorem oraAbsy (lo : Byte) (hi : Byte) : Statement (.oraAbsy lo hi) := of _
theorem incAcc : Statement .incAcc := of _
theorem undefined1B : Statement .undefined1B := of _
theorem trbAbs (lo : Byte) (hi : Byte) : Statement (.trbAbs lo hi) := of _
theorem oraAbsx (lo : Byte) (hi : Byte) : Statement (.oraAbsx lo hi) := of _
theorem aslAbsx (lo : Byte) (hi : Byte) : Statement (.aslAbsx lo hi) := of _
theorem bbr1 (zp8 : Byte) (rel8 : Byte) : Statement (.bbr1 zp8 rel8) := of _
theorem jsr (lo : Byte) (hi : Byte) : Statement (.jsr lo hi) := of _
theorem andIzx (zp8 : Byte) : Statement (.andIzx zp8) := of _
theorem undefined22 : Statement .undefined22 := of _
theorem undefined23 : Statement .undefined23 := of _
theorem bitZp (zp8 : Byte) : Statement (.bitZp zp8) := of _
theorem andZp (zp8 : Byte) : Statement (.andZp zp8) := of _
theorem rolZp (zp8 : Byte) : Statement (.rolZp zp8) := of _
theorem rmb2 (zp8 : Byte) : Statement (.rmb2 zp8) := of _
theorem plp : Statement .plp := of _
theorem andImm (imm8 : Byte) : Statement (.andImm imm8) := of _
theorem rolAcc : Statement .rolAcc := of _
theorem undefined2B : Statement .undefined2B := of _
theorem bitAbs (lo : Byte) (hi : Byte) : Statement (.bitAbs lo hi) := of _
theorem andAbs (lo : Byte) (hi : Byte) : Statement (.andAbs lo hi) := of _
theorem rolAbs (lo : Byte) (hi : Byte) : Statement (.rolAbs lo hi) := of _
theorem bbr2 (zp8 : Byte) (rel8 : Byte) : Statement (.bbr2 zp8 rel8) := of _
theorem bmi (rel8 : Byte) : Statement (.bmi rel8) := of _
theorem andIzy (zp8 : Byte) : Statement (.andIzy zp8) := of _
theorem andIzp (zp8 : Byte) : Statement (.andIzp zp8) := of _
theorem undefined33 : Statement .undefined33 := of _
theorem bitZpx (zp8 : Byte) : Statement (.bitZpx zp8) := of _
theorem andZpx (zp8 : Byte) : Statement (.andZpx zp8) := of _
theorem rolZpx (zp8 : Byte) : Statement (.rolZpx zp8) := of _
theorem rmb3 (zp8 : Byte) : Statement (.rmb3 zp8) := of _
theorem sec : Statement .sec := of _
theorem andAbsy (lo : Byte) (hi : Byte) : Statement (.andAbsy lo hi) := of _
theorem decAcc : Statement .decAcc := of _
theorem undefined3B : Statement .undefined3B := of _
theorem bitAbsx (lo : Byte) (hi : Byte) : Statement (.bitAbsx lo hi) := of _
theorem andAbsx (lo : Byte) (hi : Byte) : Statement (.andAbsx lo hi) := of _
theorem rolAbsx (lo : Byte) (hi : Byte) : Statement (.rolAbsx lo hi) := of _
theorem bbr3 (zp8 : Byte) (rel8 : Byte) : Statement (.bbr3 zp8 rel8) := of _
theorem rti : Statement .rti := of _
theorem eorIzx (zp8 : Byte) : Statement (.eorIzx zp8) := of _
theorem undefined42 : Statement .undefined42 := of _
theorem undefined43 : Statement .undefined43 := of _
theorem undefined44 : Statement .undefined44 := of _
theorem eorZp (zp8 : Byte) : Statement (.eorZp zp8) := of _
theorem lsrZp (zp8 : Byte) : Statement (.lsrZp zp8) := of _
theorem rmb4 (zp8 : Byte) : Statement (.rmb4 zp8) := of _
theorem pha : Statement .pha := of _
theorem eorImm (imm8 : Byte) : Statement (.eorImm imm8) := of _
theorem lsrAcc : Statement .lsrAcc := of _
theorem undefined4B : Statement .undefined4B := of _
theorem jmpAbs (lo : Byte) (hi : Byte) : Statement (.jmpAbs lo hi) := of _
theorem eorAbs (lo : Byte) (hi : Byte) : Statement (.eorAbs lo hi) := of _
theorem lsrAbs (lo : Byte) (hi : Byte) : Statement (.lsrAbs lo hi) := of _
theorem bbr4 (zp8 : Byte) (rel8 : Byte) : Statement (.bbr4 zp8 rel8) := of _
theorem bvc (rel8 : Byte) : Statement (.bvc rel8) := of _
theorem eorIzy (zp8 : Byte) : Statement (.eorIzy zp8) := of _
theorem eorIzp (zp8 : Byte) : Statement (.eorIzp zp8) := of _
theorem undefined53 : Statement .undefined53 := of _
theorem undefined54 : Statement .undefined54 := of _
theorem eorZpx (zp8 : Byte) : Statement (.eorZpx zp8) := of _
theorem lsrZpx (zp8 : Byte) : Statement (.lsrZpx zp8) := of _
theorem rmb5 (zp8 : Byte) : Statement (.rmb5 zp8) := of _
theorem cli : Statement .cli := of _
theorem eorAbsy (lo : Byte) (hi : Byte) : Statement (.eorAbsy lo hi) := of _
theorem phy : Statement .phy := of _
theorem undefined5B : Statement .undefined5B := of _
theorem undefined5C : Statement .undefined5C := of _
theorem eorAbsx (lo : Byte) (hi : Byte) : Statement (.eorAbsx lo hi) := of _
theorem lsrAbsx (lo : Byte) (hi : Byte) : Statement (.lsrAbsx lo hi) := of _
theorem bbr5 (zp8 : Byte) (rel8 : Byte) : Statement (.bbr5 zp8 rel8) := of _
theorem rts : Statement .rts := of _
theorem adcIzx (zp8 : Byte) : Statement (.adcIzx zp8) := of _
theorem undefined62 : Statement .undefined62 := of _
theorem undefined63 : Statement .undefined63 := of _
theorem stzZp (zp8 : Byte) : Statement (.stzZp zp8) := of _
theorem adcZp (zp8 : Byte) : Statement (.adcZp zp8) := of _
theorem rorZp (zp8 : Byte) : Statement (.rorZp zp8) := of _
theorem rmb6 (zp8 : Byte) : Statement (.rmb6 zp8) := of _
theorem pla : Statement .pla := of _
theorem adcImm (imm8 : Byte) : Statement (.adcImm imm8) := of _
theorem rorAcc : Statement .rorAcc := of _
theorem undefined6B : Statement .undefined6B := of _
theorem jmpInd (lo : Byte) (hi : Byte) : Statement (.jmpInd lo hi) := of _
theorem adcAbs (lo : Byte) (hi : Byte) : Statement (.adcAbs lo hi) := of _
theorem rorAbs (lo : Byte) (hi : Byte) : Statement (.rorAbs lo hi) := of _
theorem bbr6 (zp8 : Byte) (rel8 : Byte) : Statement (.bbr6 zp8 rel8) := of _
theorem bvs (rel8 : Byte) : Statement (.bvs rel8) := of _
theorem adcIzy (zp8 : Byte) : Statement (.adcIzy zp8) := of _
theorem adcIzp (zp8 : Byte) : Statement (.adcIzp zp8) := of _
theorem undefined73 : Statement .undefined73 := of _
theorem stzZpx (zp8 : Byte) : Statement (.stzZpx zp8) := of _
theorem adcZpx (zp8 : Byte) : Statement (.adcZpx zp8) := of _
theorem rorZpx (zp8 : Byte) : Statement (.rorZpx zp8) := of _
theorem rmb7 (zp8 : Byte) : Statement (.rmb7 zp8) := of _
theorem sei : Statement .sei := of _
theorem adcAbsy (lo : Byte) (hi : Byte) : Statement (.adcAbsy lo hi) := of _
theorem ply : Statement .ply := of _
theorem undefined7B : Statement .undefined7B := of _
theorem jmpIax (lo : Byte) (hi : Byte) : Statement (.jmpIax lo hi) := of _
theorem adcAbsx (lo : Byte) (hi : Byte) : Statement (.adcAbsx lo hi) := of _
theorem rorAbsx (lo : Byte) (hi : Byte) : Statement (.rorAbsx lo hi) := of _
theorem bbr7 (zp8 : Byte) (rel8 : Byte) : Statement (.bbr7 zp8 rel8) := of _
theorem bra (rel8 : Byte) : Statement (.bra rel8) := of _
theorem staIzx (zp8 : Byte) : Statement (.staIzx zp8) := of _
theorem undefined82 : Statement .undefined82 := of _
theorem undefined83 : Statement .undefined83 := of _
theorem styZp (zp8 : Byte) : Statement (.styZp zp8) := of _
theorem staZp (zp8 : Byte) : Statement (.staZp zp8) := of _
theorem stxZp (zp8 : Byte) : Statement (.stxZp zp8) := of _
theorem smb0 (zp8 : Byte) : Statement (.smb0 zp8) := of _
theorem dey : Statement .dey := of _
theorem bitImm (imm8 : Byte) : Statement (.bitImm imm8) := of _
theorem txa : Statement .txa := of _
theorem undefined8B : Statement .undefined8B := of _
theorem styAbs (lo : Byte) (hi : Byte) : Statement (.styAbs lo hi) := of _
theorem staAbs (lo : Byte) (hi : Byte) : Statement (.staAbs lo hi) := of _
theorem stxAbs (lo : Byte) (hi : Byte) : Statement (.stxAbs lo hi) := of _
theorem bbs0 (zp8 : Byte) (rel8 : Byte) : Statement (.bbs0 zp8 rel8) := of _
theorem bcc (rel8 : Byte) : Statement (.bcc rel8) := of _
theorem staIzy (zp8 : Byte) : Statement (.staIzy zp8) := of _
theorem staIzp (zp8 : Byte) : Statement (.staIzp zp8) := of _
theorem undefined93 : Statement .undefined93 := of _
theorem styZpx (zp8 : Byte) : Statement (.styZpx zp8) := of _
theorem staZpx (zp8 : Byte) : Statement (.staZpx zp8) := of _
theorem stxZpy (zp8 : Byte) : Statement (.stxZpy zp8) := of _
theorem smb1 (zp8 : Byte) : Statement (.smb1 zp8) := of _
theorem tya : Statement .tya := of _
theorem staAbsy (lo : Byte) (hi : Byte) : Statement (.staAbsy lo hi) := of _
theorem txs : Statement .txs := of _
theorem undefined9B : Statement .undefined9B := of _
theorem stzAbs (lo : Byte) (hi : Byte) : Statement (.stzAbs lo hi) := of _
theorem staAbsx (lo : Byte) (hi : Byte) : Statement (.staAbsx lo hi) := of _
theorem stzAbsx (lo : Byte) (hi : Byte) : Statement (.stzAbsx lo hi) := of _
theorem bbs1 (zp8 : Byte) (rel8 : Byte) : Statement (.bbs1 zp8 rel8) := of _
theorem ldyImm (imm8 : Byte) : Statement (.ldyImm imm8) := of _
theorem ldaIzx (zp8 : Byte) : Statement (.ldaIzx zp8) := of _
theorem ldxImm (imm8 : Byte) : Statement (.ldxImm imm8) := of _
theorem undefinedA3 : Statement .undefinedA3 := of _
theorem ldyZp (zp8 : Byte) : Statement (.ldyZp zp8) := of _
theorem ldaZp (zp8 : Byte) : Statement (.ldaZp zp8) := of _
theorem ldxZp (zp8 : Byte) : Statement (.ldxZp zp8) := of _
theorem smb2 (zp8 : Byte) : Statement (.smb2 zp8) := of _
theorem tay : Statement .tay := of _
theorem ldaImm (imm8 : Byte) : Statement (.ldaImm imm8) := of _
theorem tax : Statement .tax := of _
theorem undefinedAB : Statement .undefinedAB := of _
theorem ldyAbs (lo : Byte) (hi : Byte) : Statement (.ldyAbs lo hi) := of _
theorem ldaAbs (lo : Byte) (hi : Byte) : Statement (.ldaAbs lo hi) := of _
theorem ldxAbs (lo : Byte) (hi : Byte) : Statement (.ldxAbs lo hi) := of _
theorem bbs2 (zp8 : Byte) (rel8 : Byte) : Statement (.bbs2 zp8 rel8) := of _
theorem bcs (rel8 : Byte) : Statement (.bcs rel8) := of _
theorem ldaIzy (zp8 : Byte) : Statement (.ldaIzy zp8) := of _
theorem ldaIzp (zp8 : Byte) : Statement (.ldaIzp zp8) := of _
theorem undefinedB3 : Statement .undefinedB3 := of _
theorem ldyZpx (zp8 : Byte) : Statement (.ldyZpx zp8) := of _
theorem ldaZpx (zp8 : Byte) : Statement (.ldaZpx zp8) := of _
theorem ldxZpy (zp8 : Byte) : Statement (.ldxZpy zp8) := of _
theorem smb3 (zp8 : Byte) : Statement (.smb3 zp8) := of _
theorem clv : Statement .clv := of _
theorem ldaAbsy (lo : Byte) (hi : Byte) : Statement (.ldaAbsy lo hi) := of _
theorem tsx : Statement .tsx := of _
theorem undefinedBB : Statement .undefinedBB := of _
theorem ldyAbsx (lo : Byte) (hi : Byte) : Statement (.ldyAbsx lo hi) := of _
theorem ldaAbsx (lo : Byte) (hi : Byte) : Statement (.ldaAbsx lo hi) := of _
theorem ldxAbsy (lo : Byte) (hi : Byte) : Statement (.ldxAbsy lo hi) := of _
theorem bbs3 (zp8 : Byte) (rel8 : Byte) : Statement (.bbs3 zp8 rel8) := of _
theorem cpyImm (imm8 : Byte) : Statement (.cpyImm imm8) := of _
theorem cmpIzx (zp8 : Byte) : Statement (.cmpIzx zp8) := of _
theorem undefinedC2 : Statement .undefinedC2 := of _
theorem undefinedC3 : Statement .undefinedC3 := of _
theorem cpyZp (zp8 : Byte) : Statement (.cpyZp zp8) := of _
theorem cmpZp (zp8 : Byte) : Statement (.cmpZp zp8) := of _
theorem decZp (zp8 : Byte) : Statement (.decZp zp8) := of _
theorem smb4 (zp8 : Byte) : Statement (.smb4 zp8) := of _
theorem iny : Statement .iny := of _
theorem cmpImm (imm8 : Byte) : Statement (.cmpImm imm8) := of _
theorem dex : Statement .dex := of _
theorem waiRefused : Statement .waiRefused := of _
theorem cpyAbs (lo : Byte) (hi : Byte) : Statement (.cpyAbs lo hi) := of _
theorem cmpAbs (lo : Byte) (hi : Byte) : Statement (.cmpAbs lo hi) := of _
theorem decAbs (lo : Byte) (hi : Byte) : Statement (.decAbs lo hi) := of _
theorem bbs4 (zp8 : Byte) (rel8 : Byte) : Statement (.bbs4 zp8 rel8) := of _
theorem bne (rel8 : Byte) : Statement (.bne rel8) := of _
theorem cmpIzy (zp8 : Byte) : Statement (.cmpIzy zp8) := of _
theorem cmpIzp (zp8 : Byte) : Statement (.cmpIzp zp8) := of _
theorem undefinedD3 : Statement .undefinedD3 := of _
theorem undefinedD4 : Statement .undefinedD4 := of _
theorem cmpZpx (zp8 : Byte) : Statement (.cmpZpx zp8) := of _
theorem decZpx (zp8 : Byte) : Statement (.decZpx zp8) := of _
theorem smb5 (zp8 : Byte) : Statement (.smb5 zp8) := of _
theorem cld : Statement .cld := of _
theorem cmpAbsy (lo : Byte) (hi : Byte) : Statement (.cmpAbsy lo hi) := of _
theorem phx : Statement .phx := of _
theorem stp : Statement .stp := of _
theorem undefinedDC : Statement .undefinedDC := of _
theorem cmpAbsx (lo : Byte) (hi : Byte) : Statement (.cmpAbsx lo hi) := of _
theorem decAbsx (lo : Byte) (hi : Byte) : Statement (.decAbsx lo hi) := of _
theorem bbs5 (zp8 : Byte) (rel8 : Byte) : Statement (.bbs5 zp8 rel8) := of _
theorem cpxImm (imm8 : Byte) : Statement (.cpxImm imm8) := of _
theorem sbcIzx (zp8 : Byte) : Statement (.sbcIzx zp8) := of _
theorem undefinedE2 : Statement .undefinedE2 := of _
theorem undefinedE3 : Statement .undefinedE3 := of _
theorem cpxZp (zp8 : Byte) : Statement (.cpxZp zp8) := of _
theorem sbcZp (zp8 : Byte) : Statement (.sbcZp zp8) := of _
theorem incZp (zp8 : Byte) : Statement (.incZp zp8) := of _
theorem smb6 (zp8 : Byte) : Statement (.smb6 zp8) := of _
theorem inx : Statement .inx := of _
theorem sbcImm (imm8 : Byte) : Statement (.sbcImm imm8) := of _
theorem nop : Statement .nop := of _
theorem undefinedEB : Statement .undefinedEB := of _
theorem cpxAbs (lo : Byte) (hi : Byte) : Statement (.cpxAbs lo hi) := of _
theorem sbcAbs (lo : Byte) (hi : Byte) : Statement (.sbcAbs lo hi) := of _
theorem incAbs (lo : Byte) (hi : Byte) : Statement (.incAbs lo hi) := of _
theorem bbs6 (zp8 : Byte) (rel8 : Byte) : Statement (.bbs6 zp8 rel8) := of _
theorem beq (rel8 : Byte) : Statement (.beq rel8) := of _
theorem sbcIzy (zp8 : Byte) : Statement (.sbcIzy zp8) := of _
theorem sbcIzp (zp8 : Byte) : Statement (.sbcIzp zp8) := of _
theorem undefinedF3 : Statement .undefinedF3 := of _
theorem undefinedF4 : Statement .undefinedF4 := of _
theorem sbcZpx (zp8 : Byte) : Statement (.sbcZpx zp8) := of _
theorem incZpx (zp8 : Byte) : Statement (.incZpx zp8) := of _
theorem smb7 (zp8 : Byte) : Statement (.smb7 zp8) := of _
theorem sed : Statement .sed := of _
theorem sbcAbsy (lo : Byte) (hi : Byte) : Statement (.sbcAbsy lo hi) := of _
theorem plx : Statement .plx := of _
theorem undefinedFB : Statement .undefinedFB := of _
theorem undefinedFC : Statement .undefinedFC := of _
theorem sbcAbsx (lo : Byte) (hi : Byte) : Statement (.sbcAbsx lo hi) := of _
theorem incAbsx (lo : Byte) (hi : Byte) : Statement (.incAbsx lo hi) := of _
theorem bbs7 (zp8 : Byte) (rel8 : Byte) : Statement (.bbs7 zp8 rel8) := of _

end Sys2Proof.Laws.EncodedShape
end

