-- ==== Sys2Proof/Laws/Runner.lean ====
section
/-! SUPPORT. What the host's operations can do, said once each: lookups in a list of subsystems that grows, the store a
subsystem is created with, host reads, host writes. -/

namespace Sys2Proof.Machine

/-! ## Lists of subsystems -/

theorem lookup_append {rs : List Region} {q : Region} {a : Addr} :
    lookup (rs ++ [q]) a = (lookup rs a).or (if q.holds a then some q else none) := by
  simp only [lookup, List.find?_append, List.find?_cons, List.find?_nil]
  cases h : q.holds a <;> simp

theorem fabricOk_cons {r : Region} {rs : List Region} :
    fabricOk (r :: rs) = true ↔ r.fits = true ∧ (∀ q ∈ rs, r.disjoint q = true) ∧ fabricOk rs = true := by
  simp [fabricOk, and_assoc]

theorem fabricOk_append {rs : List Region} {q : Region} (h : fabricOk rs = true) (hq : q.fits = true)
    (hd : ∀ r ∈ rs, r.disjoint q = true) : fabricOk (rs ++ [q]) = true := by
  induction rs with
  | nil => simp [fabricOk, hq]
  | cons r rest ih =>
    obtain ⟨h1, h2, h3⟩ := fabricOk_cons.1 h
    refine fabricOk_cons.2 ⟨h1, fun p hp => ?_, ih h3 fun r hr => hd r (List.mem_cons_of_mem _ hr)⟩
    rcases List.mem_append.1 hp with hp | hp
    · exact h2 p hp
    · simp only [List.mem_cons, List.not_mem_nil, or_false] at hp
      subst hp
      exact hd r (by simp)

/-- Whether the ranges are sound depends on the map alone. -/
theorem fabricOk_map (rs : List Region) : fabricOk (rs.map fun r => r.withPrivateState 0) = fabricOk rs := by
  induction rs with
  | nil => rfl
  | cons r rest ih =>
    simp only [List.map_cons, fabricOk, ih, List.all_map]
    congr 2
    · simp [Region.fits]
    · congr 1; funext q; simp [Region.disjoint, overlaps]

/-- In a sound fabric a range that holds an address is the only one that does. -/
theorem fabricOk_unique {rs : List Region} (h : fabricOk rs = true) {r q : Region} (hr : r ∈ rs) (hq : q ∈ rs) {a : Addr}
    (h1 : r.holds a = true) (h2 : q.holds a = true) : r = q := by
  have apart : ∀ {r q : Region}, r.disjoint q = true → r.holds a = true → q.holds a = true → False := by
    intro r q hd h1 h2
    simp [Region.disjoint, overlaps, Region.holds] at hd h1 h2
    omega
  induction rs with
  | nil => cases hr
  | cons p rest ih =>
    obtain ⟨-, hd, hrest⟩ := fabricOk_cons.1 h
    rcases List.mem_cons.1 hr with er | hr' <;> rcases List.mem_cons.1 hq with eq | hq'
    · rw [er, eq]
    · exact (apart (hd q hq') (er ▸ h1) h2).elim
    · exact (apart (hd r hr') (eq ▸ h2) h1).elim
    · exact ih hrest hr' hq'

theorem lookup_eq_some {rs : List Region} (h : fabricOk rs = true) {r : Region} (hr : r ∈ rs) {a : Addr}
    (ha : r.holds a = true) : lookup rs a = some r := by
  cases hl : lookup rs a with
  | none => exact absurd ha (List.find?_eq_none.1 hl r hr)
  | some q =>
    have hq : q.holds a = true := List.find?_some (p := fun p : Region => p.holds a) (by exact hl)
    rw [fabricOk_unique h hr (List.mem_of_find?_eq_some hl) ha hq]

/-- In a sound fabric moving a peripheral replaces that one region. -/
theorem movePeripheral_eq_map {rs : List Region} (h : fabricOk rs = true) {r : Region} (hr : r ∈ rs) {a : Addr}
    (ha : r.holds a = true) (n : Nat) : movePeripheral rs a n = rs.map fun q => if q = r then r.withPrivateState n else q := by
  induction rs with
  | nil => rfl
  | cons p rest ih =>
    obtain ⟨-, -, hrest⟩ := fabricOk_cons.1 h
    simp only [movePeripheral, List.map_cons]
    cases hp : p.holds a with
    | true =>
      have hpr : p = r := fabricOk_unique h (by simp) hr hp ha
      subst hpr
      simp only [if_true, List.cons.injEq, true_and]
      have hno : p ∉ rest := fun hm => by
        obtain ⟨-, hd, -⟩ := fabricOk_cons.1 h
        have := hd p hm
        simp [Region.disjoint, overlaps, Region.holds] at this ha
        omega
      conv => lhs; rw [← List.map_id rest]
      apply List.map_congr_left
      intro q hq
      rw [if_neg fun he : q = p => hno (he ▸ hq), id]
    | false =>
      have hne : p ≠ r := fun he => by rw [he, ha] at hp; cases hp
      rw [if_neg (by simp), if_neg hne, ih hrest ((List.mem_cons.1 hr).resolve_left fun he => hne he.symm)]

/-- Moving a peripheral leaves every region that does not hold the address. -/
theorem mem_movePeripheral {rs : List Region} {a : Addr} {n : Nat} {r : Region} (hr : r ∈ rs) (ha : r.holds a = false) :
    r ∈ movePeripheral rs a n := by
  induction rs with
  | nil => cases hr
  | cons p rest ih =>
    simp only [movePeripheral]
    rcases List.mem_cons.1 hr with rfl | hr
    · simp [ha]
    · split
      · exact List.mem_cons_of_mem _ hr
      · exact List.mem_cons_of_mem _ (ih hr)

/-! ## The store a subsystem is created with -/

theorem writeBytes_read {bs : List Byte} {m : Memory} {b a : Nat} (h : a < b ∨ b + bs.length ≤ a) :
    Memory.read (writeBytes m b bs) a = Memory.read m a := by
  induction bs generalizing m b with
  | nil => rfl
  | cons x rest ih =>
    simp only [List.length_cons] at h
    rw [writeBytes, ih (by omega), Memory.read_write_other (by omega)]

theorem writeBytes_wf {bs : List Byte} {m : Memory} {b : Nat} (h : b + bs.length ≤ 65536) (hw : Memory.wf m = true) :
    Memory.wf (writeBytes m b bs) = true := by
  induction bs generalizing m b with
  | nil => exact hw
  | cons x rest ih =>
    simp only [List.length_cons] at h
    exact ih (by omega) (Memory.write_wf (by omega) hw)

theorem writeBytes_mem {bs : List Byte} {m : Memory} {b : Nat} {c : Host.Cell} (h : c ∈ writeBytes m b bs) :
    c ∈ m ∨ (b ≤ c.1 ∧ c.1 < b + bs.length) := by
  induction bs generalizing m b with
  | nil => exact .inl h
  | cons x rest ih =>
    simp only [List.length_cons]
    rcases ih h with h | h
    · rcases Memory.mem_write h with h | h
      · right; omega
      · exact .inl h
    · right; omega

/-- The bytes a subsystem is created with are read back. -/
theorem writeBytes_read_at {bs : List Byte} {m : Memory} {b k : Nat} {v : Byte} (h : b + bs.length ≤ 65536)
    (hw : Memory.wf m = true) (hk : bs[k]? = some v) : Memory.read (writeBytes m b bs) (b + k) = v := by
  induction bs generalizing m b k with
  | nil => simp at hk
  | cons x rest ih =>
    simp only [List.length_cons] at h
    have hw1 : Memory.wf (Memory.write m b x) = true := Memory.write_wf (by omega) hw
    cases k with
    | zero =>
      simp only [List.getElem?_cons_zero, Option.some.injEq] at hk
      rw [writeBytes, writeBytes_read (by omega), Nat.add_zero, Memory.read_write_same hw, hk]
    | succ k =>
      rw [writeBytes, show b + (k + 1) = b + 1 + k by omega]
      exact ih (by omega) hw1 (by simpa using hk)

theorem Subsystem.contents_le (sub : Subsystem) : sub.contents.length ≤ sub.len := by
  cases sub <;> simp [Subsystem.contents, Subsystem.len]

/-! ## Host reads -/

theorem afterRead_same {α β : Type} {r : HostRead α} {f : α → State → HostRead β} {s : State}
    (hr : SameButPeripherals s r.2) (hf : ∀ v t, SameButPeripherals t (f v t).2) : SameButPeripherals s (afterRead r f).2 := by
  obtain ⟨r, t⟩ := r
  cases r with
  | ok v => exact hr.trans (hf v t)
  | error e => exact hr

theorem readAll_same (as : List Addr) (s : State) : SameButPeripherals s (readAll as s).2 := by
  induction as generalizing s with
  | nil => exact .refl s
  | cons a rest ih =>
    exact afterRead_same (fabricRead_same a s) fun _ t => afterRead_same (ih t) fun _ u => .refl u

theorem readSlice_same (addr : Addr) (n : Nat) (s : State) : SameButPeripherals s (readSlice addr n s).2 := by
  unfold readSlice
  split
  · exact .refl s
  · exact readAll_same _ s

theorem readWord_same (a : Addr) (s : State) : SameButPeripherals s (readWord a s).2 :=
  afterRead_same (fabricRead_same a s) fun _ t => afterRead_same (fabricRead_same _ t) fun _ u => .refl u

/-- A stop predicate changes nothing but the private states of peripherals (R394, R397). -/
theorem Condition.eval_same (c : Condition) (s : State) : SameButPeripherals s (c.eval s).2 := by
  induction c generalizing s with
  | answer hit => exact .refl s
  | registers next ih => exact ih _ s
  | byte a next ih => exact afterRead_same (fabricRead_same a s) fun b t => ih b t
  | slice addr n next ih => exact afterRead_same (readSlice_same addr n s) fun bs t => ih bs t

/-! ## Host writes -/

theorem fabricWrite_fabricStep (a : Addr) (v : Byte) (s : State) : FabricStep s (fabricWrite a v s).2 := by
  rcases fabricWrite_cases a v s with ⟨-, hw⟩ | ⟨-, hs⟩
  · rw [hw]; exact memWrite_fabricStep (memWrite_eq_ok.2 hw)
  · exact hs.fabricStep

/-- A failed write leaves everything but a peripheral's private state (R39, 60_exceptions.md R357). -/
theorem fabricWrite_failed {a : Addr} {v : Byte} {s t : State} {e : Fault} (h : fabricWrite a v s = (some e, t)) :
    SameButPeripherals s t := by
  rcases fabricWrite_cases a v s with ⟨-, hw⟩ | ⟨-, hs⟩
  · rw [hw] at h; cases h
  · rwa [h] at hs

theorem writeAll_fabricStep (a : Addr) (bs : List Byte) (s : State) : FabricStep s (writeAll a bs s).state := by
  induction bs generalizing a s with
  | nil => exact .refl s
  | cons b rest ih =>
    have hw := fabricWrite_fabricStep a b s
    unfold writeAll
    split
    · rename_i h; rw [h] at hw; exact hw
    · rename_i h; rw [h] at hw; exact hw.trans (ih _ _)

/-- The next address of a run, counted from its first or from its second. -/
theorem addr_next (a : Addr) (k : Nat) : a + 1 + BitVec.ofNat 16 k = a + BitVec.ofNat 16 (k + 1) := by
  apply BitVec.eq_of_toNat_eq
  simp
  omega

/-- Two addresses of a run no longer than the address space differ. -/
theorem addr_next_ne (a : Addr) {k : Nat} (h : k + 1 < 65536) : a ≠ a + BitVec.ofNat 16 (k + 1) := by
  intro he
  have := congrArg BitVec.toNat he
  have := a.isLt
  simp only [BitVec.toNat_add, BitVec.toNat_ofNat] at *
  omega

/-- Writes of one list after another are the writes of the two lists joined, up to the first error. -/
theorem writeAll_append (a : Addr) (pre post : List Byte) (s : State) :
    writeAll a (pre ++ post) s = match writeAll a pre s with
      | .done u => writeAll (a + BitVec.ofNat 16 pre.length) post u
      | .failed e u => .failed e u := by
  induction pre generalizing a s with
  | nil => simp [writeAll]
  | cons b rest ih =>
    simp only [List.cons_append, writeAll, List.length_cons]
    rcases fabricWrite a b s with ⟨r, u⟩
    cases r with
    | some f => rfl
    | none =>
      dsimp only
      rw [ih, addr_next]

/-- What a write of all the bytes leaves: no register changes, a byte stands where it was written in RAM, and every other
address shows what it showed. -/
theorem writeAll_done {a : Addr} {bs : List Byte} {s t : State} (hl : bs.length ≤ 65536) (h : writeAll a bs s = .done t) :
    t = { s with regions := t.regions, mem := t.mem } ∧ fabricMap t = fabricMap s ∧
      (Memory.wf s.mem = true → ∀ k b, bs[k]? = some b → IsRam s (a + BitVec.ofNat 16 k) →
        peek t (a + BitVec.ofNat 16 k) = some b) ∧
      ∀ x, (∀ k < bs.length, x ≠ a + BitVec.ofNat 16 k) → peek t x = peek s x := by
  induction bs generalizing a s with
  | nil => cases h; exact ⟨rfl, rfl, fun _ _ _ hk => by simp at hk, fun _ _ => rfl⟩
  | cons b rest ih =>
    simp only [List.length_cons] at hl
    rw [writeAll] at h
    rcases hw : fabricWrite a b s with ⟨r, u⟩
    rw [hw] at h
    cases r with
    | some f => cases h
    | none =>
      have hw := memWrite_eq_ok.2 hw
      obtain ⟨e1, m1⟩ := memWrite_frame hw
      obtain ⟨e2, m2, r2, o2⟩ := ih (by omega) h
      refine ⟨by rw [e2, e1], m2.trans m1, fun hwf k c hk hr => ?_, fun x hx => ?_⟩
      · cases k with
        | zero =>
          simp only [List.getElem?_cons_zero, Option.some.injEq] at hk
          subst hk
          simp only [BitVec.add_zero] at hr ⊢
          rw [o2 a fun k hk => by rw [addr_next]; exact addr_next_ne a (by omega), memWrite_peek_same hwf hr hw]
        | succ k =>
          rw [← addr_next] at hr ⊢
          exact r2 (memWrite_wf hwf hw) k c (by simpa using hk) ((isRam_congr m1 _).2 hr)
      · rw [o2 x fun k hk => by rw [addr_next]; exact hx (k + 1) (by simp; omega)]
        exact memWrite_peek_other hw (by simpa using hx 0 (by simp))

/-- Writes to RAM all succeed, and move no peripheral. -/
theorem writeAll_ram {a : Addr} {bs : List Byte} {s : State} (h : ∀ k < bs.length, IsRam s (a + BitVec.ofNat 16 k)) :
    ∃ m, writeAll a bs s = .done (setMem m s) := by
  induction bs generalizing a s with
  | nil => exact ⟨s.mem, rfl⟩
  | cons b rest ih =>
    have h0 : IsRam s a := by simpa using h 0 (by simp)
    obtain ⟨m, hm⟩ := @ih (a + 1) (setMem (Memory.write s.mem a.toNat b) s) fun k hk => by
      rw [addr_next]
      exact h (k + 1) (by simp; omega)
    refine ⟨m, ?_⟩
    rw [writeAll, memWrite_eq_ok.1 (memWrite_ram h0 b)]
    exact hm

theorem scrambleSlice_fabricStep (m : Memory) (addr : Addr) (bs : List Byte) (i : Nat) (as : List Addr) (s : State) :
    FabricStep s (scrambleSlice m addr bs i as s) := by
  induction as generalizing i s with
  | nil => exact .refl s
  | cons a rest ih =>
    simp only [scrambleSlice]
    refine FabricStep.trans ?_ (ih _ _)
    cases h : lookup s.regions a with
    | none => exact .refl s
    | some r =>
      obtain ⟨k, b, l⟩ := r
      cases k with
      | ram => exact memWrite_fabricStep (memWrite_ram (by simp [IsRam, h]) _)
      | rom => exact .refl s
      | peripheral d st => exact .of_same (movePeripheral_map ..) rfl

/-! ## Slices -/

theorem mem_sliceAddrs {a x : Addr} {n : Nat} : x ∈ sliceAddrs a n ↔ ∃ k < n, x = a + BitVec.ofNat 16 k := by
  induction n generalizing a with
  | zero => simp [sliceAddrs]
  | succ n ih =>
    rw [sliceAddrs, List.mem_cons, ih]
    constructor
    · rintro (rfl | ⟨k, hk, rfl⟩)
      · exact ⟨0, by omega, by simp⟩
      · exact ⟨k + 1, by omega, addr_next a k⟩
    · rintro ⟨k, hk, rfl⟩
      cases k with
      | zero => left; simp
      | succ k => exact .inr ⟨k, by omega, (addr_next a k).symm⟩

/-- A slice meets no hole exactly when all its addresses are mapped (R40, R41). -/
theorem sliceError_eq_none {a : Addr} {n : Nat} {s : State} :
    sliceError a n s = none ↔ ∀ k < n, lookup s.regions (a + BitVec.ofNat 16 k) ≠ none := by
  have all : (∀ x ∈ sliceAddrs a n, lookup s.regions x ≠ none) ↔ ∀ k < n, lookup s.regions (a + BitVec.ofNat 16 k) ≠ none :=
    ⟨fun h k hk => h _ (mem_sliceAddrs.2 ⟨k, hk, rfl⟩), fun h x hx => by obtain ⟨k, hk, rfl⟩ := mem_sliceAddrs.1 hx; exact h k hk⟩
  rw [← all, sliceError]
  cases sliceAddrs a n with
  | nil => simp
  | cons a0 rest =>
    cases h0 : lookup s.regions a0 with
    | none => simp [h0]
    | some r =>
      simp only [h0, Option.isNone_some, Bool.false_eq_true, if_false]
      split
      · rename_i h
        obtain ⟨x, hx, hn⟩ := List.any_eq_true.1 h
        simp only [reduceCtorEq, List.mem_cons, ne_eq, forall_eq_or_imp, false_iff, not_and]
        exact fun _ hall => hall x hx (Option.isNone_iff_eq_none.1 hn)
      · rename_i h
        simp only [List.any_eq_true, not_exists, not_and, Option.isNone_iff_eq_none] at h
        simp only [List.mem_cons, ne_eq, forall_eq_or_imp, h0, reduceCtorEq, not_false_eq_true, true_and, true_iff]
        exact h

/-- What a failed slice write leaves: no register changes, nothing outside the range and no byte but RAM's (R41). -/
theorem scrambleSlice_frame (m : Memory) (addr : Addr) (bs : List Byte) (i : Nat) (as : List Addr) (s : State) :
    scrambleSlice m addr bs i as s =
        { s with regions := (scrambleSlice m addr bs i as s).regions, mem := (scrambleSlice m addr bs i as s).mem } ∧
      (∀ x, x ∉ as → peek (scrambleSlice m addr bs i as s) x = peek s x) ∧
      ∀ r ∈ s.regions, (∀ x ∈ as, r.holds x = false) → r ∈ (scrambleSlice m addr bs i as s).regions := by
  induction as generalizing i s with
  | nil => exact ⟨rfl, fun _ _ => rfl, fun _ hr _ => hr⟩
  | cons a rest ih =>
    have one : ∃ s1, scrambleSlice m addr bs i (a :: rest) s = scrambleSlice m addr bs (i + 1) rest s1 ∧
        s1 = { s with regions := s1.regions, mem := s1.mem } ∧ (∀ x, x ≠ a → peek s1 x = peek s x) ∧
        ∀ r ∈ s.regions, r.holds a = false → r ∈ s1.regions := by
      refine ⟨_, rfl, ?_⟩
      cases h : lookup s.regions a with
      | none => exact ⟨rfl, fun _ _ => rfl, fun _ hr _ => hr⟩
      | some r =>
        obtain ⟨k, b, l⟩ := r
        cases k with
        | ram =>
          have hw := memWrite_ram (s := s) (a := a) (by simp [IsRam, h]) (Config.failedSliceByte m addr bs i)
          exact ⟨rfl, fun x hx => memWrite_peek_other hw hx, fun _ hr _ => hr⟩
        | rom => exact ⟨rfl, fun _ _ => rfl, fun _ hr _ => hr⟩
        | peripheral d st =>
          have hm : fabricMap (setRegions (movePeripheral s.regions a (Config.failedSliceState m addr bs i)) s) = fabricMap s :=
            movePeripheral_map ..
          exact ⟨rfl, fun x _ => peek_congr hm rfl x, fun _ hr ha => mem_movePeripheral hr ha⟩
    obtain ⟨s1, e, e1, p1, r1⟩ := one
    obtain ⟨e2, p2, r2⟩ := ih (i + 1) s1
    rw [e]
    refine ⟨by rw [e2, e1], fun x hx => ?_, fun r hr ha => ?_⟩
    · rw [p2 x fun h => hx (List.mem_cons_of_mem _ h), p1 x fun h => hx (h ▸ List.mem_cons_self ..)]
    · exact r2 r (r1 r hr (ha a (by simp))) fun x hx => ha x (List.mem_cons_of_mem _ hx)

/-- A slice write succeeds exactly when its addresses are mapped and every byte's write succeeds. -/
theorem writeSlice_eq_done {addr : Addr} {bs : List Byte} {s t : State} :
    writeSlice addr bs s = .done t ↔ sliceError addr bs.length s = none ∧ writeAll addr bs s = .done t := by
  unfold writeSlice
  cases sliceError addr bs.length s with
  | some f => simp
  | none => cases writeAll addr bs s <;> simp

/-- It fails with the error of a hole, or with that of the first byte whose write fails. -/
theorem writeSlice_eq_failed {addr : Addr} {bs : List Byte} {s t : State} {e : VerbError} :
    writeSlice addr bs s = .failed e t ↔ t = scrambleSlice s.mem addr bs 0 (sliceAddrs addr bs.length) s ∧
      ((∃ f, sliceError addr bs.length s = some f ∧ e = .fabric f) ∨
        (sliceError addr bs.length s = none ∧ ∃ u, writeAll addr bs s = .failed e u)) := by
  unfold writeSlice
  cases sliceError addr bs.length s with
  | some f => simp [@eq_comm _ t, @eq_comm _ e, and_comm]
  | none => cases writeAll addr bs s <;> simp [@eq_comm _ t, and_comm, @eq_comm _ _ e]

end Sys2Proof.Machine
end

