-- ==== Sys2Proof/Tests/Slice0.lean ====
section
/-! SUPPORT. The model's own tests: the well-formedness smoke, decode tests for every row of 30_encoding.md R66, one-step
tests from the vectors of 95_test_vectors.md (expected results from there), and a witness for the hypotheses of every
statement of Certificates/Slice0/Obligations.lean. -/

namespace Sys2Proof.Tests

open Sys2Proof.Machine

/-! ## Well-formedness: the ill-formed rows are refused -/

theorem test_unassigned_row_is_not_wellFormed : ¬ WellFormed .undefined02 := by decide
theorem test_refused_row_is_not_wellFormed : ¬ WellFormed .waiRefused := by decide
theorem test_any_operand_is_wellFormed : WellFormed (.ldaAbsx 0xFF 0xFF) ∧ WellFormed (.bbs7 0xFF 0xFF) := by decide

/-! ## Decoding: one word per family, bit by bit -/

/-- What the decoder reads from a byte string, and nothing left over. -/
def reads (bytes : List Byte) (i : Instr) : Bool :=
  match decode bytes with
  | .ok (j, rest) => decide (j = i) && rest.isEmpty
  | .error _ => false

theorem test_decode_load : reads [0b10110001, 0x10] (.ldaIzy 0x10) = true := by decide
theorem test_decode_store : reads [0b10011110, 0x00, 0x30] (.stzAbsx 0x00 0x30) = true := by decide
theorem test_decode_transfer : reads [0b10011010] .txs = true := by decide
theorem test_decode_arith : reads [0b11111001, 0x34, 0x12] (.sbcAbsy 0x34 0x12) = true := by decide
theorem test_decode_logic : reads [0b01010010, 0x20] (.eorIzp 0x20) = true := by decide
theorem test_decode_bit : reads [0b10001001, 0x0F] (.bitImm 0x0F) = true := by decide
theorem test_decode_tsb_trb : reads [0b00011100, 0x34, 0x12] (.trbAbs 0x34 0x12) = true := by decide
theorem test_decode_rmb_smb : reads [0b11010111, 0x10] (.smb5 0x10) = true := by decide
theorem test_decode_shift : reads [0b01110110, 0x80] (.rorZpx 0x80) = true := by decide
theorem test_decode_incdec : reads [0b00111010] .decAcc = true := by decide
theorem test_decode_compare : reads [0b11001100, 0x34, 0x12] (.cpyAbs 0x34 0x12) = true := by decide
theorem test_decode_branch : reads [0b01110000, 0xFE] (.bvs 0xFE) = true := by decide
theorem test_decode_bit_branch : reads [0b01101111, 0x10, 0xFD] (.bbr6 0x10 0xFD) = true := by decide
theorem test_decode_jump : reads [0b01111100, 0x00, 0x20] (.jmpIax 0x00 0x20) = true := by decide
theorem test_decode_subroutine : reads [0b00100000, 0x34, 0x12] (.jsr 0x34 0x12) = true := by decide
theorem test_decode_stack : reads [0b11011010] .phx = true := by decide
theorem test_decode_flag : reads [0b11111000] .sed = true := by decide
theorem test_decode_system : reads [0b01000000] .rti = true := by decide
theorem test_decode_stop : reads [0b11011011] .stp = true := by decide
theorem test_decode_missing_operand : reads [0xAD, 0x34] (.ldaAbs 0x34 0x00) = false := by decide

/-! ## Decoding: every row, sixteen by sixteen (the opcode's hex digits; operand bytes 0x34, 0x12) -/

/-- The instructions of sixteen rows. -/
def rowsFrom (first : Nat) : List Instr := (List.range 16).map fun k => decodeOp (BitVec.ofNat 8 (first + k)) 0x34 0x12

theorem test_rows_00 : rowsFrom 0x00 = [
    .brk, .oraIzx 0x34, .undefined02, .undefined03,
    .tsbZp 0x34, .oraZp 0x34, .aslZp 0x34, .rmb0 0x34,
    .php, .oraImm 0x34, .aslAcc, .undefined0B,
    .tsbAbs 0x34 0x12, .oraAbs 0x34 0x12, .aslAbs 0x34 0x12, .bbr0 0x34 0x12] := by decide

theorem test_rows_10 : rowsFrom 0x10 = [
    .bpl 0x34, .oraIzy 0x34, .oraIzp 0x34, .undefined13,
    .trbZp 0x34, .oraZpx 0x34, .aslZpx 0x34, .rmb1 0x34,
    .clc, .oraAbsy 0x34 0x12, .incAcc, .undefined1B,
    .trbAbs 0x34 0x12, .oraAbsx 0x34 0x12, .aslAbsx 0x34 0x12, .bbr1 0x34 0x12] := by decide

theorem test_rows_20 : rowsFrom 0x20 = [
    .jsr 0x34 0x12, .andIzx 0x34, .undefined22, .undefined23,
    .bitZp 0x34, .andZp 0x34, .rolZp 0x34, .rmb2 0x34,
    .plp, .andImm 0x34, .rolAcc, .undefined2B,
    .bitAbs 0x34 0x12, .andAbs 0x34 0x12, .rolAbs 0x34 0x12, .bbr2 0x34 0x12] := by decide

theorem test_rows_30 : rowsFrom 0x30 = [
    .bmi 0x34, .andIzy 0x34, .andIzp 0x34, .undefined33,
    .bitZpx 0x34, .andZpx 0x34, .rolZpx 0x34, .rmb3 0x34,
    .sec, .andAbsy 0x34 0x12, .decAcc, .undefined3B,
    .bitAbsx 0x34 0x12, .andAbsx 0x34 0x12, .rolAbsx 0x34 0x12, .bbr3 0x34 0x12] := by decide

theorem test_rows_40 : rowsFrom 0x40 = [
    .rti, .eorIzx 0x34, .undefined42, .undefined43,
    .undefined44, .eorZp 0x34, .lsrZp 0x34, .rmb4 0x34,
    .pha, .eorImm 0x34, .lsrAcc, .undefined4B,
    .jmpAbs 0x34 0x12, .eorAbs 0x34 0x12, .lsrAbs 0x34 0x12, .bbr4 0x34 0x12] := by decide

theorem test_rows_50 : rowsFrom 0x50 = [
    .bvc 0x34, .eorIzy 0x34, .eorIzp 0x34, .undefined53,
    .undefined54, .eorZpx 0x34, .lsrZpx 0x34, .rmb5 0x34,
    .cli, .eorAbsy 0x34 0x12, .phy, .undefined5B,
    .undefined5C, .eorAbsx 0x34 0x12, .lsrAbsx 0x34 0x12, .bbr5 0x34 0x12] := by decide

theorem test_rows_60 : rowsFrom 0x60 = [
    .rts, .adcIzx 0x34, .undefined62, .undefined63,
    .stzZp 0x34, .adcZp 0x34, .rorZp 0x34, .rmb6 0x34,
    .pla, .adcImm 0x34, .rorAcc, .undefined6B,
    .jmpInd 0x34 0x12, .adcAbs 0x34 0x12, .rorAbs 0x34 0x12, .bbr6 0x34 0x12] := by decide

theorem test_rows_70 : rowsFrom 0x70 = [
    .bvs 0x34, .adcIzy 0x34, .adcIzp 0x34, .undefined73,
    .stzZpx 0x34, .adcZpx 0x34, .rorZpx 0x34, .rmb7 0x34,
    .sei, .adcAbsy 0x34 0x12, .ply, .undefined7B,
    .jmpIax 0x34 0x12, .adcAbsx 0x34 0x12, .rorAbsx 0x34 0x12, .bbr7 0x34 0x12] := by decide

theorem test_rows_80 : rowsFrom 0x80 = [
    .bra 0x34, .staIzx 0x34, .undefined82, .undefined83,
    .styZp 0x34, .staZp 0x34, .stxZp 0x34, .smb0 0x34,
    .dey, .bitImm 0x34, .txa, .undefined8B,
    .styAbs 0x34 0x12, .staAbs 0x34 0x12, .stxAbs 0x34 0x12, .bbs0 0x34 0x12] := by decide

theorem test_rows_90 : rowsFrom 0x90 = [
    .bcc 0x34, .staIzy 0x34, .staIzp 0x34, .undefined93,
    .styZpx 0x34, .staZpx 0x34, .stxZpy 0x34, .smb1 0x34,
    .tya, .staAbsy 0x34 0x12, .txs, .undefined9B,
    .stzAbs 0x34 0x12, .staAbsx 0x34 0x12, .stzAbsx 0x34 0x12, .bbs1 0x34 0x12] := by decide

theorem test_rows_A0 : rowsFrom 0xA0 = [
    .ldyImm 0x34, .ldaIzx 0x34, .ldxImm 0x34, .undefinedA3,
    .ldyZp 0x34, .ldaZp 0x34, .ldxZp 0x34, .smb2 0x34,
    .tay, .ldaImm 0x34, .tax, .undefinedAB,
    .ldyAbs 0x34 0x12, .ldaAbs 0x34 0x12, .ldxAbs 0x34 0x12, .bbs2 0x34 0x12] := by decide

theorem test_rows_B0 : rowsFrom 0xB0 = [
    .bcs 0x34, .ldaIzy 0x34, .ldaIzp 0x34, .undefinedB3,
    .ldyZpx 0x34, .ldaZpx 0x34, .ldxZpy 0x34, .smb3 0x34,
    .clv, .ldaAbsy 0x34 0x12, .tsx, .undefinedBB,
    .ldyAbsx 0x34 0x12, .ldaAbsx 0x34 0x12, .ldxAbsy 0x34 0x12, .bbs3 0x34 0x12] := by decide

theorem test_rows_C0 : rowsFrom 0xC0 = [
    .cpyImm 0x34, .cmpIzx 0x34, .undefinedC2, .undefinedC3,
    .cpyZp 0x34, .cmpZp 0x34, .decZp 0x34, .smb4 0x34,
    .iny, .cmpImm 0x34, .dex, .waiRefused,
    .cpyAbs 0x34 0x12, .cmpAbs 0x34 0x12, .decAbs 0x34 0x12, .bbs4 0x34 0x12] := by decide

theorem test_rows_D0 : rowsFrom 0xD0 = [
    .bne 0x34, .cmpIzy 0x34, .cmpIzp 0x34, .undefinedD3,
    .undefinedD4, .cmpZpx 0x34, .decZpx 0x34, .smb5 0x34,
    .cld, .cmpAbsy 0x34 0x12, .phx, .stp,
    .undefinedDC, .cmpAbsx 0x34 0x12, .decAbsx 0x34 0x12, .bbs5 0x34 0x12] := by decide

theorem test_rows_E0 : rowsFrom 0xE0 = [
    .cpxImm 0x34, .sbcIzx 0x34, .undefinedE2, .undefinedE3,
    .cpxZp 0x34, .sbcZp 0x34, .incZp 0x34, .smb6 0x34,
    .inx, .sbcImm 0x34, .nop, .undefinedEB,
    .cpxAbs 0x34 0x12, .sbcAbs 0x34 0x12, .incAbs 0x34 0x12, .bbs6 0x34 0x12] := by decide

theorem test_rows_F0 : rowsFrom 0xF0 = [
    .beq 0x34, .sbcIzy 0x34, .sbcIzp 0x34, .undefinedF3,
    .undefinedF4, .sbcZpx 0x34, .incZpx 0x34, .smb7 0x34,
    .sed, .sbcAbsy 0x34 0x12, .plx, .undefinedFB,
    .undefinedFC, .sbcAbsx 0x34 0x12, .incAbsx 0x34 0x12, .bbs7 0x34 0x12] := by decide

/-! ## One step: the vectors' start states and what a step must answer -/

def resetMap : List Region := State.reset.regions
/-- Fabric F1 of the vectors. -/
def mapOne : List Region := [⟨.ram, 0x0000, 0x8000⟩, ⟨.rom, 0xC000, 0x4000⟩]
/-- Fabric F2: the stack page is ROM. -/
def mapTwo : List Region := [⟨.ram, 0x0000, 0x0100⟩, ⟨.rom, 0x0100, 0x0100⟩, ⟨.ram, 0x0200, 0xFE00⟩]
/-- Fabric F3: the upper half is unmapped. -/
def mapThree : List Region := [⟨.ram, 0x0000, 0x8000⟩]

/-- The vectors' default start: reset, CP at 0x0200. -/
def begin : State := { State.reset with cp := 0x0200 }

def poke (cells : List Host.Cell) (m : Memory) : Memory := cells.foldl (fun m c => Memory.write m c.1 c.2) m

/-- A start state: the instruction's bytes at CP, and bytes elsewhere. -/
def start (map : List Region) (s : State) (code : List Byte) (cells : List Host.Cell) : State :=
  let placed := (List.range code.length).map fun k => ((offsetAddr s.cp k).toNat, code.getD k 0)
  { s with regions := map, mem := poke cells (poke placed []) }

/-- One step answers the start state with some registers changed, some bytes written, and the cycles added. -/
def runs (s : State) (change : State → State) (writes : List Host.Cell) (cycles : Nat) (terminal : Bool) : Bool :=
  match report s with
  | .success o t =>
    decide (t = { change s with mem := poke writes s.mem, cycleCount := BitVec.ofNat 64 cycles }) &&
      decide (o.consumed = cycles) && decide (o.terminal = terminal)
  | .error _ => false
  | .refused _ => false

/-- One step fails with an error. -/
def fails (s : State) (f : Fault) : Bool :=
  match step s with
  | .fault g => decide (g = f)
  | .next _ => false
  | .refused _ => false

/-- V41.1: LDA #$80. -/
theorem test_V41_1 : runs (start resetMap begin [0xA9, 0x80] [])
    (fun s => { s with a := 0x80, p := Status.ofByte 0xB0, cp := 0x0202 }) [] 2 false = true := by decide

/-- V41.11: LDX $FF,Y. -/
theorem test_V41_11 : runs (start resetMap { begin with y := 0x02 } [0xB6, 0xFF] [(0x0001, 0x11)])
    (fun s => { s with x := 0x11, cp := 0x0202 }) [] 4 false = true := by decide

/-- V41.13: LDY $2000,X. -/
theorem test_V41_13 : runs (start resetMap { begin with x := 0xFF } [0xBC, 0x00, 0x20] [(0x20FF, 0x80)])
    (fun s => { s with y := 0x80, p := Status.ofByte 0xB0, cp := 0x0203 }) [] 4 false = true := by decide

/-- V41.14: STA $12F0,X. -/
theorem test_V41_14 : runs (start resetMap { begin with a := 0x5A, x := 0x20 } [0x9D, 0xF0, 0x12] [])
    (fun s => { s with cp := 0x0203 }) [(0x1310, 0x5A)] 5 false = true := by decide

/-- V41.16: STX $80,Y. -/
theorem test_V41_16 : runs (start resetMap { begin with x := 0x12, y := 0x90 } [0x96, 0x80] [])
    (fun s => { s with cp := 0x0202 }) [(0x0010, 0x12)] 4 false = true := by decide

/-- V41.17: STY $01,X. -/
theorem test_V41_17 : runs (start resetMap { begin with x := 0xFF, y := 0x34 } [0x94, 0x01] [(0x0000, 0xFF)])
    (fun s => { s with cp := 0x0202 }) [(0x0000, 0x34)] 4 false = true := by decide

/-- V41.18: STZ $3000. -/
theorem test_V41_18 : runs (start resetMap { begin with a := 0xFF } [0x9C, 0x00, 0x30] [(0x3000, 0xAA)])
    (fun s => { s with cp := 0x0203 }) [(0x3000, 0x00)] 4 false = true := by decide

/-- V41.20: TAX. -/
theorem test_V41_20 : runs (start resetMap { begin with x := 0x55 } [0xAA] [])
    (fun s => { s with x := 0x00, p := Status.ofByte 0x32, cp := 0x0201 }) [] 2 false = true := by decide

/-- V41.21: TAY. -/
theorem test_V41_21 : runs (start resetMap { begin with a := 0x80 } [0xA8] [])
    (fun s => { s with y := 0x80, p := Status.ofByte 0xB0, cp := 0x0201 }) [] 2 false = true := by decide

/-- V41.22: TXA. -/
theorem test_V41_22 : runs (start resetMap { begin with a := 0x80, x := 0x7F, p := Status.ofByte 0xB0 } [0x8A] [])
    (fun s => { s with a := 0x7F, p := Status.ofByte 0x30, cp := 0x0201 }) [] 2 false = true := by decide

/-- V41.23: TYA. -/
theorem test_V41_23 : runs (start resetMap { begin with a := 0x01 } [0x98] [])
    (fun s => { s with a := 0x00, p := Status.ofByte 0x32, cp := 0x0201 }) [] 2 false = true := by decide

/-- V41.24: TSX. -/
theorem test_V41_24 : runs (start resetMap begin [0xBA] [])
    (fun s => { s with x := 0xFF, p := Status.ofByte 0xB0, cp := 0x0201 }) [] 2 false = true := by decide

/-- V41.25: TXS. -/
theorem test_V41_25 : runs (start resetMap begin [0x9A] [])
    (fun s => { s with sp := 0x00, cp := 0x0201 }) [] 2 false = true := by decide

/-- V42.1: ADC #$50. -/
theorem test_V42_1 : runs (start resetMap { begin with a := 0x50 } [0x69, 0x50] [])
    (fun s => { s with a := 0xA0, p := Status.ofByte 0xF0, cp := 0x0202 }) [] 2 false = true := by decide

/-- V42.7: SBC #$F0. -/
theorem test_V42_7 : runs (start resetMap { begin with a := 0x50, p := Status.ofByte 0x31 } [0xE9, 0xF0] [])
    (fun s => { s with a := 0x60, p := Status.ofByte 0x30, cp := 0x0202 }) [] 2 false = true := by decide

/-- V43.1: AND #$0F. -/
theorem test_V43_1 : runs (start resetMap { begin with a := 0xF0 } [0x29, 0x0F] [])
    (fun s => { s with a := 0x00, p := Status.ofByte 0x32, cp := 0x0202 }) [] 2 false = true := by decide

/-- V43.3: ORA #$80. -/
theorem test_V43_3 : runs (start resetMap { begin with a := 0x01 } [0x09, 0x80] [])
    (fun s => { s with a := 0x81, p := Status.ofByte 0xB0, cp := 0x0202 }) [] 2 false = true := by decide

/-- V43.5: EOR #$FF. -/
theorem test_V43_5 : runs (start resetMap { begin with a := 0x55 } [0x49, 0xFF] [])
    (fun s => { s with a := 0xAA, p := Status.ofByte 0xB0, cp := 0x0202 }) [] 2 false = true := by decide

/-- V43.7: BIT $10. -/
theorem test_V43_7 : runs (start resetMap { begin with a := 0x01 } [0x24, 0x10] [(0x0010, 0xC0)])
    (fun s => { s with p := Status.ofByte 0xF2, cp := 0x0202 }) [] 3 false = true := by decide

/-- V43.11: TSB $10. -/
theorem test_V43_11 : runs (start resetMap { begin with a := 0x0F } [0x04, 0x10] [(0x0010, 0xF0)])
    (fun s => { s with p := Status.ofByte 0x32, cp := 0x0202 }) [(0x0010, 0xFF)] 5 false = true := by decide

/-- V43.13: TRB $10. -/
theorem test_V43_13 : runs (start resetMap { begin with a := 0x0F } [0x14, 0x10] [(0x0010, 0xFF)])
    (fun s => { s with cp := 0x0202 }) [(0x0010, 0xF0)] 5 false = true := by decide

/-- V43.15: RMB3 $10. -/
theorem test_V43_15 : runs (start resetMap begin [0x37, 0x10] [(0x0010, 0xFF)])
    (fun s => { s with cp := 0x0202 }) [(0x0010, 0xF7)] 5 false = true := by decide

/-- V43.17: SMB7 $10. -/
theorem test_V43_17 : runs (start resetMap begin [0xF7, 0x10] [(0x0010, 0x00)])
    (fun s => { s with cp := 0x0202 }) [(0x0010, 0x80)] 5 false = true := by decide

/-- V44.1: ASL A. -/
theorem test_V44_1 : runs (start resetMap { begin with a := 0x81 } [0x0A] [])
    (fun s => { s with a := 0x02, p := Status.ofByte 0x31, cp := 0x0201 }) [] 2 false = true := by decide

/-- V44.5: LSR A. -/
theorem test_V44_5 : runs (start resetMap { begin with a := 0x01 } [0x4A] [])
    (fun s => { s with a := 0x00, p := Status.ofByte 0x33, cp := 0x0201 }) [] 2 false = true := by decide

/-- V44.7: ROL $10. -/
theorem test_V44_7 : runs (start resetMap { begin with p := Status.ofByte 0x31 } [0x26, 0x10] [(0x0010, 0x80)])
    (fun s => { s with cp := 0x0202 }) [(0x0010, 0x01)] 5 false = true := by decide

/-- V44.9: ROR $3000. -/
theorem test_V44_9 : runs (start resetMap { begin with p := Status.ofByte 0x31 } [0x6E, 0x00, 0x30] [(0x3000, 0x01)])
    (fun s => { s with p := Status.ofByte 0xB1, cp := 0x0203 }) [(0x3000, 0x80)] 6 false = true := by decide

/-- V45.1: INC $10. -/
theorem test_V45_1 : runs (start resetMap { begin with p := Status.ofByte 0x31 } [0xE6, 0x10] [(0x0010, 0xFF)])
    (fun s => { s with p := Status.ofByte 0x33, cp := 0x0202 }) [(0x0010, 0x00)] 5 false = true := by decide

/-- V45.4: DEC $10. -/
theorem test_V45_4 : runs (start resetMap begin [0xC6, 0x10] [(0x0010, 0x00)])
    (fun s => { s with p := Status.ofByte 0xB0, cp := 0x0202 }) [(0x0010, 0xFF)] 5 false = true := by decide

/-- V45.7: INX. -/
theorem test_V45_7 : runs (start resetMap { begin with x := 0xFF } [0xE8] [])
    (fun s => { s with x := 0x00, p := Status.ofByte 0x32, cp := 0x0201 }) [] 2 false = true := by decide

/-- V45.8: INY. -/
theorem test_V45_8 : runs (start resetMap { begin with y := 0x7F } [0xC8] [])
    (fun s => { s with y := 0x80, p := Status.ofByte 0xB0, cp := 0x0201 }) [] 2 false = true := by decide

/-- V45.9: DEX. -/
theorem test_V45_9 : runs (start resetMap begin [0xCA] [])
    (fun s => { s with x := 0xFF, p := Status.ofByte 0xB0, cp := 0x0201 }) [] 2 false = true := by decide

/-- V45.10: DEY. -/
theorem test_V45_10 : runs (start resetMap { begin with y := 0x01 } [0x88] [])
    (fun s => { s with y := 0x00, p := Status.ofByte 0x32, cp := 0x0201 }) [] 2 false = true := by decide

/-- V46.1: CMP #$40. -/
theorem test_V46_1 : runs (start resetMap { begin with a := 0x40 } [0xC9, 0x40] [])
    (fun s => { s with p := Status.ofByte 0x33, cp := 0x0202 }) [] 2 false = true := by decide

/-- V46.7: CPX $10. -/
theorem test_V46_7 : runs (start resetMap { begin with x := 0x05 } [0xE4, 0x10] [(0x0010, 0x06)])
    (fun s => { s with p := Status.ofByte 0xB0, cp := 0x0202 }) [] 3 false = true := by decide

/-- V46.9: CPY $3000. -/
theorem test_V46_9 : runs (start resetMap { begin with y := 0xFF } [0xCC, 0x00, 0x30] [(0x3000, 0x7F)])
    (fun s => { s with p := Status.ofByte 0xB1, cp := 0x0203 }) [] 4 false = true := by decide

/-- V47.1: BNE $8102. -/
theorem test_V47_1 : runs (start resetMap { begin with cp := 0x80FE } [0xD0, 0x02] [])
    (fun s => { s with cp := 0x8102 }) [] 4 false = true := by decide

/-- V47.7: BPL $0206. -/
theorem test_V47_7 : runs (start resetMap begin [0x10, 0x04] [])
    (fun s => { s with cp := 0x0206 }) [] 3 false = true := by decide

/-- V47.9: BMI $0206. -/
theorem test_V47_9 : runs (start resetMap { begin with p := Status.ofByte 0xB0 } [0x30, 0x04] [])
    (fun s => { s with cp := 0x0206 }) [] 3 false = true := by decide

/-- V47.10: BVC $0206. -/
theorem test_V47_10 : runs (start resetMap { begin with p := Status.ofByte 0x70 } [0x50, 0x04] [])
    (fun s => { s with cp := 0x0202 }) [] 2 false = true := by decide

/-- V47.11: BVS $0206. -/
theorem test_V47_11 : runs (start resetMap { begin with p := Status.ofByte 0x70 } [0x70, 0x04] [])
    (fun s => { s with cp := 0x0206 }) [] 3 false = true := by decide

/-- V47.12: BCC $0281. -/
theorem test_V47_12 : runs (start resetMap begin [0x90, 0x7F] [])
    (fun s => { s with cp := 0x0281 }) [] 3 false = true := by decide

/-- V47.13: BCS $0182. -/
theorem test_V47_13 : runs (start resetMap { begin with p := Status.ofByte 0x31 } [0xB0, 0x80] [])
    (fun s => { s with cp := 0x0182 }) [] 4 false = true := by decide

/-- V47.14: BEQ $0206. -/
theorem test_V47_14 : runs (start resetMap { begin with p := Status.ofByte 0x32 } [0xF0, 0x04] [])
    (fun s => { s with cp := 0x0206 }) [] 3 false = true := by decide

/-- V47.16: BRA $0280. -/
theorem test_V47_16 : runs (start resetMap { begin with p := Status.ofByte 0xFF } [0x80, 0x7E] [])
    (fun s => { s with cp := 0x0280 }) [] 3 false = true := by decide

/-- V47.18: BBR0 $10,$0208. -/
theorem test_V47_18 : runs (start resetMap begin [0x0F, 0x10, 0x05] [(0x0010, 0xFE)])
    (fun s => { s with cp := 0x0208 }) [] 6 false = true := by decide

/-- V47.21: BBS7 $10,$0303. -/
theorem test_V47_21 : runs (start resetMap { begin with cp := 0x02F0 } [0xFF, 0x10, 0x10] [(0x0010, 0x80)])
    (fun s => { s with cp := 0x0303 }) [] 7 false = true := by decide

/-- V48.1: JMP $8000. -/
theorem test_V48_1 : runs (start resetMap begin [0x4C, 0x00, 0x80] [])
    (fun s => { s with cp := 0x8000 }) [] 3 false = true := by decide

/-- V48.6: JSR $0300. -/
theorem test_V48_6 : runs (start resetMap begin [0x20, 0x00, 0x03] [])
    (fun s => { s with sp := 0xFD, cp := 0x0300 }) [(0x01FE, 0x02), (0x01FF, 0x02)] 6 false = true := by decide

/-- V48.9: RTS. -/
theorem test_V48_9 : runs (start resetMap { begin with sp := 0xFD, cp := 0x0300 } [0x60] [(0x01FE, 0x02), (0x01FF, 0x02)])
    (fun s => { s with sp := 0xFF, cp := 0x0203 }) [] 6 false = true := by decide

/-- V48.11: RTI. -/
theorem test_V48_11 : runs (start resetMap { begin with sp := 0xFC, cp := 0x0300 } [0x40] [(0x01FD, 0xC3), (0x01FE, 0x02), (0x01FF, 0x02)])
    (fun s => { s with sp := 0xFF, p := Status.ofByte 0xF3, cp := 0x0202 }) [] 6 false = true := by decide

/-- V48.13: BRK. -/
theorem test_V48_13 : runs (start resetMap { begin with cp := 0x0000 } [0x00] [])
    (fun s => { s with sp := 0xFC, p := Status.ofByte 0x34 }) [(0x01FD, 0x30), (0x01FE, 0x02), (0x01FF, 0x00)] 7 true = true := by decide

/-- V49.1: PHA. -/
theorem test_V49_1 : runs (start resetMap { begin with a := 0x42 } [0x48] [])
    (fun s => { s with sp := 0xFE, cp := 0x0201 }) [(0x01FF, 0x42)] 3 false = true := by decide

/-- V49.3: PLA. -/
theorem test_V49_3 : runs (start resetMap { begin with sp := 0xFE } [0x68] [(0x01FF, 0x80)])
    (fun s => { s with a := 0x80, sp := 0xFF, p := Status.ofByte 0xB0, cp := 0x0201 }) [] 4 false = true := by decide

/-- V49.5: PHX. -/
theorem test_V49_5 : runs (start resetMap { begin with x := 0x11 } [0xDA] [])
    (fun s => { s with sp := 0xFE, cp := 0x0201 }) [(0x01FF, 0x11)] 3 false = true := by decide

/-- V49.6: PLX. -/
theorem test_V49_6 : runs (start resetMap { begin with sp := 0xFE } [0xFA] [(0x01FF, 0x00)])
    (fun s => { s with sp := 0xFF, p := Status.ofByte 0x32, cp := 0x0201 }) [] 4 false = true := by decide

/-- V49.7: PHY. -/
theorem test_V49_7 : runs (start resetMap { begin with y := 0x22 } [0x5A] [])
    (fun s => { s with sp := 0xFE, cp := 0x0201 }) [(0x01FF, 0x22)] 3 false = true := by decide

/-- V49.8: PLY. -/
theorem test_V49_8 : runs (start resetMap { begin with sp := 0xFE } [0x7A] [(0x01FF, 0xFF)])
    (fun s => { s with y := 0xFF, sp := 0xFF, p := Status.ofByte 0xB0, cp := 0x0201 }) [] 4 false = true := by decide

/-- V49.9: PHP. -/
theorem test_V49_9 : runs (start resetMap begin [0x08] [])
    (fun s => { s with sp := 0xFE, cp := 0x0201 }) [(0x01FF, 0x30)] 3 false = true := by decide

/-- V49.11: PLP. -/
theorem test_V49_11 : runs (start resetMap { begin with sp := 0xFE } [0x28] [(0x01FF, 0xFF)])
    (fun s => { s with sp := 0xFF, p := Status.ofByte 0xFF, cp := 0x0201 }) [] 4 false = true := by decide

/-- V49.13: CLC. -/
theorem test_V49_13 : runs (start resetMap { begin with p := Status.ofByte 0xFF } [0x18] [])
    (fun s => { s with p := Status.ofByte 0xFE, cp := 0x0201 }) [] 2 false = true := by decide

/-- V49.14: SEC. -/
theorem test_V49_14 : runs (start resetMap begin [0x38] [])
    (fun s => { s with p := Status.ofByte 0x31, cp := 0x0201 }) [] 2 false = true := by decide

/-- V49.15: CLI. -/
theorem test_V49_15 : runs (start resetMap { begin with p := Status.ofByte 0xFF } [0x58] [])
    (fun s => { s with p := Status.ofByte 0xFB, cp := 0x0201 }) [] 2 false = true := by decide

/-- V49.16: SEI. -/
theorem test_V49_16 : runs (start resetMap begin [0x78] [])
    (fun s => { s with p := Status.ofByte 0x34, cp := 0x0201 }) [] 2 false = true := by decide

/-- V49.17: CLD. -/
theorem test_V49_17 : runs (start resetMap { begin with p := Status.ofByte 0xFF } [0xD8] [])
    (fun s => { s with p := Status.ofByte 0xF7, cp := 0x0201 }) [] 2 false = true := by decide

/-- V49.18: SED. -/
theorem test_V49_18 : runs (start resetMap begin [0xF8] [])
    (fun s => { s with p := Status.ofByte 0x38, cp := 0x0201 }) [] 2 false = true := by decide

/-- V49.19: CLV. -/
theorem test_V49_19 : runs (start resetMap { begin with p := Status.ofByte 0xFF } [0xB8] [])
    (fun s => { s with p := Status.ofByte 0xBF, cp := 0x0201 }) [] 2 false = true := by decide

/-- V49.20: NOP. -/
theorem test_V49_20 : runs (start resetMap begin [0xEA] [])
    (fun s => { s with cp := 0x0201 }) [] 2 false = true := by decide

/-- V49.21: STP. -/
theorem test_V49_21 : runs (start resetMap begin [0xDB] [])
    (fun s => s) [] 3 true = true := by decide

/-- E1: .byte $02. -/
theorem test_E1 : fails (start resetMap begin [0x02] []) (.unknownOpcode 0x02 0x0200) = true := by decide

/-- E2: .byte $CB. -/
theorem test_E2 : fails (start resetMap begin [0xCB] []) (.unknownOpcode 0xCB 0x0200) = true := by decide

/-- E3: .byte $02. -/
theorem test_E3 : fails (start mapOne { begin with cp := 0x7FFF } [0x02] []) (.unknownOpcode 0x02 0x7FFF) = true := by decide

/-- E4: STA $C000. -/
theorem test_E4 : fails (start mapOne { begin with a := 0x01 } [0x8D, 0x00, 0xC0] []) (.writeToReadOnly 0xC000) = true := by decide

/-- E5: LDA $8000. -/
theorem test_E5 : fails (start mapOne begin [0xAD, 0x00, 0x80] []) (.unmappedAddress 0x8000) = true := by decide

/-- E6: STA $8000. -/
theorem test_E6 : fails (start mapOne begin [0x8D, 0x00, 0x80] []) (.unmappedAddress 0x8000) = true := by decide

/-- E7: NOP. -/
theorem test_E7 : fails (start mapOne { begin with cp := 0x8000 } [0xEA] []) (.unmappedAddress 0x8000) = true := by decide

/-- E8: LDA (operand byte outside the listing). -/
theorem test_E8 : fails (start mapOne { begin with cp := 0x7FFF } [0xA9] []) (.unmappedAddress 0x8000) = true := by decide

/-- E9: INC $C000. -/
theorem test_E9 : fails (start mapOne begin [0xEE, 0x00, 0xC0] [(0xC000, 0x41)]) (.writeToReadOnly 0xC000) = true := by decide

/-- E11: LDA ($40),Y. -/
theorem test_E11 : fails (start mapOne { begin with y := 0x01 } [0xB1, 0x40] [(0x0040, 0xFF), (0x0041, 0x7F)]) (.unmappedAddress 0x8000) = true := by decide

/-- E12: BRK. -/
theorem test_E12 : fails (start mapThree begin [0x00] []) (.unmappedAddress 0xFFFE) = true := by decide

/-- E13: JSR $0300. -/
theorem test_E13 : fails (start mapTwo begin [0x20, 0x00, 0x03] []) (.writeToReadOnly 0x01FF) = true := by decide

/-- V41.5: LDA $12F0,X. -/
theorem test_V41_5 : runs (start resetMap { begin with x := 0x20 } [0xBD, 0xF0, 0x12] [(0x1310, 0x42)])
    (fun s => { s with a := 0x42, cp := 0x0203 }) [] 5 false = true := by decide

/-- V41.7: LDA $FFFF,Y. -/
theorem test_V41_7 : runs (start resetMap { begin with y := 0x02 } [0xB9, 0xFF, 0xFF] [(0x0001, 0x99)])
    (fun s => { s with a := 0x99, p := Status.ofByte 0xB0, cp := 0x0203 }) [] 5 false = true := by decide

/-- V41.8: LDA ($FE,X). -/
theorem test_V41_8 : runs (start resetMap { begin with x := 0x01 } [0xA1, 0xFE] [(0x0000, 0x04), (0x00FF, 0x00), (0x0100, 0x05), (0x0400, 0x33)])
    (fun s => { s with a := 0x33, cp := 0x0202 }) [] 6 false = true := by decide

/-- V41.9: LDA ($FF),Y. -/
theorem test_V41_9 : runs (start resetMap { begin with y := 0x10 } [0xB1, 0xFF] [(0x0000, 0x04), (0x00FF, 0xF8), (0x0508, 0x77)])
    (fun s => { s with a := 0x77, cp := 0x0202 }) [] 6 false = true := by decide

/-- V41.15: STA ($40),Y. -/
theorem test_V41_15 : runs (start resetMap { begin with y := 0xFF } [0x91, 0x40] [(0x0040, 0x01), (0x0041, 0x20), (0x2100, 0xEE)])
    (fun s => { s with cp := 0x0202 }) [(0x2100, 0x00)] 6 false = true := by decide

/-- V42.2: ADC #$01. -/
theorem test_V42_2 : runs (start resetMap { begin with a := 0xFF } [0x69, 0x01] [])
    (fun s => { s with a := 0x00, p := Status.ofByte 0x33, cp := 0x0202 }) [] 2 false = true := by decide

/-- V42.3: ADC #$00. -/
theorem test_V42_3 : runs (start resetMap { begin with a := 0x7F, p := Status.ofByte 0x31 } [0x69, 0x00] [])
    (fun s => { s with a := 0x80, p := Status.ofByte 0xF0, cp := 0x0202 }) [] 2 false = true := by decide

/-- V42.8: SBC #$B0. -/
theorem test_V42_8 : runs (start resetMap { begin with a := 0x50, p := Status.ofByte 0x31 } [0xE9, 0xB0] [])
    (fun s => { s with a := 0xA0, p := Status.ofByte 0xF0, cp := 0x0202 }) [] 2 false = true := by decide

/-- V44.2: ASL $10. -/
theorem test_V44_2 : runs (start resetMap begin [0x06, 0x10] [(0x0010, 0x40)])
    (fun s => { s with p := Status.ofByte 0xB0, cp := 0x0202 }) [(0x0010, 0x80)] 5 false = true := by decide

/-- V48.2: JMP $0200. -/
theorem test_V48_2 : runs (start resetMap begin [0x4C, 0x00, 0x02] [])
    (fun s => s) [] 3 true = true := by decide

/-- V48.3: JMP ($12FF). -/
theorem test_V48_3 : runs (start resetMap begin [0x6C, 0xFF, 0x12] [(0x1200, 0x99), (0x12FF, 0x34), (0x1300, 0x56)])
    (fun s => { s with cp := 0x5634 }) [] 6 false = true := by decide

/-! ## The page cycle, the host's verbs, launches -/

/-- R110: the set has the rows the opcode table flags, and an empty set takes the cycle from all of them. -/
theorem test_page_penalty_set :
    Config.pagePenaltySet.length = 28 ∧ paysPageCycle Config.pagePenaltySet (.aslAbsx 0x00 0x00) = true ∧
      paysPageCycle Config.pagePenaltySet (.incAbsx 0x00 0x00) = false ∧
      paysPageCycle Config.pagePenaltySet (.staIzy 0x00) = false ∧ paysPageCycle [] (.ldaAbsx 0x00 0x00) = false := by decide

/-- R399: a `registers set` after the flush is part of the premise. -/
theorem test_regs_flushed_with_cp : RegsFlushed [(.cp, 0x0200), (.status, 0xFF)] { begin with p := Status.ofByte 0xFF } :=
  ⟨begin, _, rfl, by decide⟩

/-- R399, R400: "reset, then these writes", entered by `run init`, leads to the program at the vector's address. -/
theorem test_launch :
    Launch.LeadsTo ⟨[], .resetThen [.write 0xFFFC [0x34, 0x12]], .init⟩
      { State.reset with cp := 0x1234, mem := [(0xFFFC, 0x34), (0xFFFD, 0x12)] } :=
  ⟨{ State.reset with mem := [(0xFFFC, 0x34), (0xFFFD, 0x12)] }, ⟨State.reset, _, rfl, by decide⟩,
    ⟨State.reset, _, rfl, by decide, by decide⟩, rfl⟩

/-- H2: a fill without a value writes 0x00. -/
theorem test_H2 : memoryFill 0x0010 0x0010 none { begin with mem := [(0x0010, 0x55)] } = .done begin := rfl

/-- R392, D28: a fill that reaches ROM keeps the bytes before it. -/
theorem test_fill_into_rom :
    memoryFill 0x0000 0x0001 (some 0x07) { begin with regions := [⟨.ram, 0x0000, 1⟩, ⟨.rom, 0x0001, 1⟩] } =
      .failed (.fabric (.writeToReadOnly 0x0001)) { begin with regions := [⟨.ram, 0x0000, 1⟩, ⟨.rom, 0x0001, 1⟩], mem := [(0, 0x07)] } :=
  rfl

/-! ## A witness for the hypotheses of each statement

Each theorem is named after the statement and gives a concrete state and operands that meet all of its hypotheses together,
clause by clause. -/

theorem next_of {r : Result} (h : (match r with | .next _ => true | .fault _ => false | .refused _ => false) = true) :
    ∃ t, r = .next t := by
  cases r with
  | next t => exact ⟨t, rfl⟩
  | fault f => cases h
  | refused f => cases h

/-- Every address of the reset fabric is RAM (20_memory.md R44). -/
theorem reset_allRam : AllRam State.reset := by
  intro a
  have h := a.isLt
  have hl : lookup State.reset.regions a = some ⟨.ram, 0x0000, 0x10000⟩ := by
    have hd : decide (a.toNat < 0 + 0x10000) = true := decide_eq_true (by omega)
    simp [State.reset, lookup, Region.holds, hd]
  rw [IsRam, hl]
  rfl

theorem reset_covered : Covered State.reset := by
  intro a
  have h := reset_allRam a
  unfold IsRam at h
  cases hl : lookup State.reset.regions a with
  | none => simp [hl] at h
  | some r => rfl

/-- RAM below 0x8000, ROM from 0xC000 on, a hole between; CP in RAM. -/
def mixed : State := { begin with regions := mapOne, mem := [(0x0200, 0xEA), (0xC000, 0x55)] }
/-- ROM in the zero page and the stack page. -/
def romLow : State := { begin with regions := [⟨.rom, 0x0000, 0x0200⟩, ⟨.ram, 0x0200, 0xFE00⟩] }
/-- One peripheral over the whole address space. -/
def withDevice : State := { begin with regions := [⟨.peripheral 7 0, 0x0000, 0x10000⟩] }

theorem romLow_covered : Covered romLow := by
  intro a
  have ha := a.isLt
  by_cases h : a.toNat < 0x0200
  · simp [romLow, lookup, Region.holds, h]
  · have hd : decide (a.toNat < 0x0200 + 0xFE00) = true := decide_eq_true (by omega)
    have hl : decide (0x0200 ≤ a.toNat) = true := decide_eq_true (by omega)
    have hn : decide (a.toNat < 0x0200) = false := decide_eq_false h
    simp [romLow, lookup, List.find?, Region.holds, hn, hl, hd]

theorem withDevice_covered : Covered withDevice := by
  intro a
  have ha := a.isLt
  have hd : decide (a.toNat < 0x10000) = true := decide_eq_true (by omega)
  simp [withDevice, lookup, Region.holds, hd]

/-- RAM everywhere, with a few bytes and register values. -/
def busy : State :=
  { begin with
    a := 0x81, x := 0x20, y := 0x10, sp := 0x00
    p := { Status.flushed with c := true, d := true, v := true }
    mem := [(0x0001, 0x12), (0x0010, 0xC0), (0x0011, 0x30), (0x0012, 0x40), (0x00FF, 0xF8), (0x0101, 0x34), (0x0102, 0x12),
      (0x0103, 0x80), (0x0200, 0xDB), (0x3010, 0x7F), (0x40F8, 0x01), (0xFFFD, 0x80), (0xFFFF, 0x90)] }

theorem witness_RamAndPeripheralAccesses_ram :
    (Memory.wf State.reset.mem = true ∧ IsRam State.reset 0xFFFF ∧ IsRam State.reset 0x0000) ∧
      ∃ t, attach (.ram 0x10) 0xFFF0 (emptyFabric State.reset) = .done t ∧ 0xFFF0 ≤ (0xFFFF : Addr).toNat ∧
        (0xFFFF : Addr).toNat < 0xFFF0 + 0x10 :=
  ⟨by decide, _, rfl, by decide, by decide⟩

/-- A peripheral between two RAMs, read and written at its last offset. -/
def between : State := { begin with regions := [⟨.ram, 0x0000, 0x8000⟩, ⟨.peripheral 7 3, 0x8000, 0x0100⟩, ⟨.ram, 0x8100, 0x7F00⟩] }

theorem witness_RamAndPeripheralAccesses_peripheral :
    fabricOk between.regions = true ∧ (⟨.peripheral 7 3, 0x8000, 0x0100⟩ : Region) ∈ between.regions ∧
      Region.holds ⟨.peripheral 7 3, 0x8000, 0x0100⟩ 0x80FF = true ∧ Region.holds ⟨.peripheral 7 3, 0x8000, 0x0100⟩ 0x8000 = true := by
  decide

theorem witness_StoreToRomFails_operand :
    (Instr.mode (.staAbs 0x00 0xC0) = .mem (.abs 0x00 0xC0) ∧ Instr.mnemonic (.staAbs 0x00 0xC0) = .sta ∧
      resolve (.abs 0x00 0xC0) mixed = .ok (⟨0xC000, false⟩, mixed) ∧ IsRom mixed 0xC000) ∧
    (Instr.mode (.rmb7 0xFF) = .mem (.zp 0xFF) ∧ Instr.mnemonic (.rmb7 0xFF) = .rmb 7 ∧
      Instr.mode (.smb0 0xFF) = .mem (.zp 0xFF) ∧ Instr.mnemonic (.smb0 0xFF) = .smb 0 ∧
      resolve (.zp 0xFF) romLow = .ok (⟨0x00FF, false⟩, romLow) ∧ IsRom romLow 0x00FF) :=
  ⟨⟨rfl, rfl, rfl, by decide⟩, rfl, rfl, rfl, rfl, rfl, by decide⟩

theorem witness_StoreToRomFails_stack :
    Instr.mnemonic .pha ∈ [Mnemonic.jsr, .brk, .pha, .php, .phx, .phy] ∧ IsRom romLow (stackAddr romLow.sp) := by decide

/-- The stack page is ROM from 0x01FE down, then from 0x01FD down. -/
def romStack (top : Nat) : State :=
  { begin with regions := [⟨.ram, 0x0000, 0x0100⟩, ⟨.rom, 0x0100, top⟩, ⟨.ram, BitVec.ofNat 16 (0x0100 + top), 0x10⟩] }

theorem witness_StoreToRomFails_later_pushes :
    ((∃ t, push (highByte (offsetAddr (romStack 0xFF).cp 2)) (romStack 0xFF) = .ok t) ∧
      IsRom (romStack 0xFF) (stackAddr ((romStack 0xFF).sp - 1)) ∧ Instr.mnemonic (.jsr 0x34 0x12) = .jsr ∧
      Instr.mnemonic .brk = .brk) ∧
    (∃ t, pushWord (offsetAddr (romStack 0xFE).cp 2) (romStack 0xFE) = .ok t) ∧
      IsRom (romStack 0xFE) (stackAddr ((romStack 0xFE).sp - 2)) :=
  ⟨⟨⟨_, rfl⟩, by decide, rfl, rfl⟩, ⟨_, rfl⟩, by decide⟩

theorem witness_StepKeepsFabricMapAndRom : (∃ t, step mixed = .next t) ∧ IsRom mixed 0xC000 ∧ IsRom mixed 0xFFFF :=
  ⟨next_of (by decide), by decide⟩

theorem witness_LookupIsUnique :
    fabricOk mixed.regions = true ∧ (⟨.rom, 0xC000, 0x4000⟩ : Region) ∈ mixed.regions ∧
      Region.holds ⟨.rom, 0xC000, 0x4000⟩ 0xC000 = true ∧ Region.holds ⟨.rom, 0xC000, 0x4000⟩ 0xFFFF = true ∧
      mixed.regions.reverse.Perm mixed.regions ∧ (∀ r ∈ mixed.regions, r.holds 0x8000 = false) ∧
      ∀ r ∈ mixed.regions, r.holds 0xBFFF = false :=
  ⟨by decide, by decide, by decide, by decide, List.reverse_perm _, by decide, by decide⟩

theorem witness_AttachJoinsOrRefuses_refused :
    (Subsystem.len (.rom []) = 0 ∧ 65536 < 0xFFFF + Subsystem.len (.ram 2)) ∧ Memory.wf mixed.mem = true ∧
      (∃ t, attach (.rom [0x11, 0x22]) 0xBFFE mixed = .done t) ∧ [(0x11 : Byte), 0x22][1]? = some 0x22 :=
  ⟨by decide, by decide, ⟨_, rfl⟩, rfl⟩

theorem witness_AttachJoinsOrRefuses_overlap :
    fabricOk mixed.regions = true ∧ 1 ≤ (Subsystem.ram 0x4001).len ∧ 0x8000 + (Subsystem.ram 0x4001).len ≤ 65536 ∧
      ∃ r ∈ mixed.regions, ∃ a : Addr, r.holds a = true ∧ 0x8000 ≤ a.toNat ∧
        a.toNat < 0x8000 + (Subsystem.ram 0x4001).len :=
  ⟨by decide, by decide, by decide, ⟨.rom, 0xC000, 0x4000⟩, by decide, 0xC000, by decide, by decide, by decide⟩

theorem witness_AttachJoinsOrRefuses_joins :
    1 ≤ (Subsystem.ram 0x4000).len ∧ 0x8000 + (Subsystem.ram 0x4000).len ≤ 65536 ∧
      ∀ r ∈ mixed.regions, ∀ a : Addr, r.holds a = true → a.toNat < 0x8000 ∨ 0x8000 + (Subsystem.ram 0x4000).len ≤ a.toNat := by
  refine ⟨by decide, by decide, fun r hr a h => ?_⟩
  simp only [mixed, mapOne, List.mem_cons, List.not_mem_nil, or_false] at hr
  rcases hr with rfl | rfl <;> simp [Region.holds, Subsystem.len] at h ⊢ <;> omega

theorem witness_EncodeOfDecode : decode [0xAD, 0x34, 0x12, 0xEA] = .ok (.ldaAbs 0x34 0x12, [0xEA]) := rfl

theorem witness_OpcodeAndMnemonicModeDetermineEachOther :
    WellFormed (.ldaZp 0x00) ∧ WellFormed (.ldaZp 0xFF) ∧ Instr.mnemonic (.ldaZp 0x00) = Instr.mnemonic (.ldaZp 0xFF) ∧
      (Instr.mode (.ldaZp 0x00)).tag = (Instr.mode (.ldaZp 0xFF)).tag := by decide

/-- LDA $1234 whose bytes wrap past 0xFFFF. -/
def wrapped : State := start resetMap { begin with cp := 0xFFFE } [0xAD, 0x34, 0x12] []

theorem witness_StepRunsDecodedInstruction :
    decode [0xAD, 0x34, 0x12] = .ok (.ldaAbs 0x34 0x12, []) ∧
      (∀ k, k < Instr.length (.ldaAbs 0x34 0x12) → ∃ b, [(0xAD : Byte), 0x34, 0x12][k]? = some b ∧
        peek wrapped (wrapped.cp + BitVec.ofNat 16 k) = some b) ∧
      fetch wrapped = .ok (.ldaAbs 0x34 0x12, wrapped) := by
  refine ⟨rfl, fun k hk => ?_, rfl⟩
  have h3 : k < 3 := hk
  match k, h3 with
  | 0, _ => exact ⟨0xAD, rfl, by decide⟩
  | 1, _ => exact ⟨0x34, rfl, by decide⟩
  | 2, _ => exact ⟨0x12, rfl, by decide⟩

/-- An absolute-mode opcode, or an unassigned one, `k` bytes below the hole of map F3. -/
def edge (k : Nat) (op : Byte) : State := start mapThree { begin with cp := BitVec.ofNat 16 (0x8000 - k) } [op] []

theorem witness_FetchErrorsComeInAccessOrder :
    (lookup (edge 0 0xAD).regions (edge 0 0xAD).cp = none ∧
      memRead (edge 0 0xAD).cp (edge 0 0xAD) = .error (.unmappedAddress 0x8000)) ∧
    (memRead (edge 1 0x02).cp (edge 1 0x02) = .ok (0x02, edge 1 0x02) ∧ (decodeOp 0x02 0 0).assigned = false) ∧
    (memRead (edge 1 0xAD).cp (edge 1 0xAD) = .ok (0xAD, edge 1 0xAD) ∧ 2 ≤ opcodeLength 0xAD ∧
      memRead ((edge 1 0xAD).cp + 1) (edge 1 0xAD) = .error (.unmappedAddress 0x8000)) ∧
    (memRead (edge 2 0xAD).cp (edge 2 0xAD) = .ok (0xAD, edge 2 0xAD) ∧ 3 ≤ opcodeLength 0xAD ∧
      memRead ((edge 2 0xAD).cp + 1) (edge 2 0xAD) = .ok (0x00, edge 2 0xAD) ∧
      memRead ((edge 2 0xAD).cp + 2) (edge 2 0xAD) = .error (.unmappedAddress 0x8000)) :=
  ⟨⟨by decide, rfl⟩, ⟨rfl, by decide⟩, ⟨rfl, by decide, rfl⟩, rfl, by decide, rfl, rfl⟩

theorem witness_ZeroPagePointerWrapsInPageZero :
    memRead (BitVec.ofNat 16 (0xFF : Byte).toNat) busy = .ok (0xF8, busy) ∧
      memRead (BitVec.ofNat 16 (((0xFF : Byte).toNat + 1) % 256)) busy = .ok (0x00, busy) := ⟨rfl, rfl⟩

theorem witness_ModesWithPointer :
    (peek busy (BitVec.ofNat 16 (((0xDF : Byte).toNat + busy.x.toNat) % 256)) = some 0xF8 ∧
      peek busy (BitVec.ofNat 16 (((0xDF : Byte).toNat + busy.x.toNat + 1) % 256)) = some 0x00) ∧
    (peek busy (BitVec.ofNat 16 ((0xFF : Byte).toNat % 256)) = some 0xF8 ∧
      peek busy (BitVec.ofNat 16 (((0xFF : Byte).toNat + 1) % 256)) = some 0x00) ∧
    (peek busy (BitVec.ofNat 16 (((0xFF : Byte).toNat + 256 * (0xFF : Byte).toNat) % 65536)) = some 0x90 ∧
      peek busy (BitVec.ofNat 16 (((0xFF : Byte).toNat + 256 * (0xFF : Byte).toNat + 1) % 65536)) = some 0x00) ∧
    (peek busy (BitVec.ofNat 16 (((0xF1 : Byte).toNat + 256 * (0xFF : Byte).toNat + busy.x.toNat) % 65536)) = some 0x30 ∧
      peek busy (BitVec.ofNat 16 (((0xF1 : Byte).toNat + 256 * (0xFF : Byte).toNat + busy.x.toNat + 1) % 65536)) =
        some 0x40) := by decide

theorem witness_OperandReadsChangeNoRegisterAndNoByte :
    resolve (.izy 0x10) busy = .ok (⟨0x30D0, false⟩, busy) ∧
      (resolve (.izy 0xFF) busy = .ok (⟨0x0108, true⟩, busy) ∧ memRead 0x0108 busy = .ok (0x00, busy)) ∧
      (resolve (.abs 0x00 0x80) mixed = .ok (⟨0x8000, false⟩, mixed) ∧
        memRead 0x8000 mixed = .error (.unmappedAddress 0x8000)) ∧
      resolve (.ind 0x00 0x80) mixed = .error (.unmappedAddress 0x8000) ∧
      readSource (.mem (.izy 0x11)) busy = .ok (⟨0x00, false⟩, busy) ∧ NoPeripheral busy ∧ Covered romLow ∧
      NoPeripheral romLow ∧ Covered withDevice ∧ IsPeripheral withDevice 0x0000 ∧ IsPeripheral withDevice 0xFFFF :=
  ⟨rfl, ⟨rfl, rfl⟩, ⟨rfl, rfl⟩, rfl, rfl, by decide, romLow_covered, by decide, withDevice_covered, by decide⟩

theorem witness_LoadResult :
    (Instr.mnemonic (.ldaIzy 0xFF) = .lda ∧ modeSource (Instr.mode (.ldaIzy 0xFF)) = some (.mem (.izy 0xFF)) ∧
      readSource (.mem (.izy 0xFF)) busy = .ok (⟨0x00, true⟩, busy)) ∧
    (Instr.mnemonic (.ldxImm 0x80) = .ldx ∧ modeSource (Instr.mode (.ldxImm 0x80)) = some (.imm 0x80) ∧
      readSource (.imm 0x80) busy = .ok (⟨0x80, false⟩, busy)) ∧
    (Instr.mnemonic (.ldyZp 0x10) = .ldy ∧ modeSource (Instr.mode (.ldyZp 0x10)) = some (.mem (.zp 0x10)) ∧
      readSource (.mem (.zp 0x10)) busy = .ok (⟨0xC0, false⟩, busy)) :=
  ⟨⟨rfl, rfl, rfl⟩, ⟨rfl, rfl, rfl⟩, rfl, rfl, rfl⟩

theorem witness_StoreResult :
    (Instr.mnemonic (.staAbsx 0xF0 0x12) = .sta ∧ Instr.mnemonic (.stzAbsx 0xF0 0x12) = .stz ∧
      modeAddress (Instr.mode (.staAbsx 0xF0 0x12)) = some (.absx 0xF0 0x12) ∧
      modeAddress (Instr.mode (.stzAbsx 0xF0 0x12)) = some (.absx 0xF0 0x12) ∧
      resolve (.absx 0xF0 0x12) busy = .ok (⟨0x1310, true⟩, busy) ∧
      (∃ t, memWrite 0x1310 busy.a busy = .ok t) ∧ ∃ t, memWrite 0x1310 0x00 busy = .ok t) ∧
    (Instr.mnemonic (.stxZp 0xFF) = .stx ∧ Instr.mnemonic (.styZp 0xFF) = .sty ∧
      modeAddress (Instr.mode (.stxZp 0xFF)) = some (.zp 0xFF) ∧ modeAddress (Instr.mode (.styZp 0xFF)) = some (.zp 0xFF) ∧
      resolve (.zp 0xFF) busy = .ok (⟨0x00FF, false⟩, busy) ∧
      (∃ t, memWrite 0x00FF busy.x busy = .ok t) ∧ ∃ t, memWrite 0x00FF busy.y busy = .ok t) ∧
    Memory.wf busy.mem = true ∧ IsRam busy 0x1310 ∧ IsRam busy 0x00FF :=
  ⟨⟨rfl, rfl, rfl, rfl, rfl, ⟨_, rfl⟩, _, rfl⟩, ⟨rfl, rfl, rfl, rfl, rfl, ⟨_, rfl⟩, _, rfl⟩, by decide⟩

theorem witness_AddSubtractResult :
    (Instr.mnemonic (.adcImm 0x99) = .adc ∧ Instr.mnemonic (.sbcImm 0x99) = .sbc ∧
      modeSource (Instr.mode (.adcImm 0x99)) = some (.imm 0x99) ∧
      modeSource (Instr.mode (.sbcImm 0x99)) = some (.imm 0x99)) ∧
    (busy.p.d = true ∧ readSource (.imm 0x99) busy = .ok (⟨0x99, false⟩, busy)) ∧
    (begin.p.d = false ∧ readSource (.imm 0x99) begin = .ok (⟨0x99, false⟩, begin)) :=
  ⟨⟨rfl, rfl, rfl, rfl⟩, ⟨rfl, rfl⟩, rfl, rfl⟩

theorem witness_DecimalFlagReadOnlyByAddSubtractAndPushes :
    (∃ t, exec (.adcImm 0x99) { busy with p := { busy.p with d := false } } = .next t) ∧
    (∃ t, exec (.adcImm 0x99) { busy with p := { busy.p with d := true } } = .next t) ∧
    (∃ t, exec (.sbcImm 0x99) { busy with p := { busy.p with d := false } } = .next t) ∧
    (∃ t, exec (.sbcImm 0x99) { busy with p := { busy.p with d := true } } = .next t) ∧
    (Instr.mnemonic .plp ∉ [Mnemonic.adc, .sbc, .php, .brk] ∧ ∃ t, exec .plp busy = .next t) :=
  ⟨⟨_, rfl⟩, ⟨_, rfl⟩, ⟨_, rfl⟩, ⟨_, rfl⟩, by decide, _, rfl⟩

/-- 99 and 0 at the ends of the digits, with the carry and the borrow there. -/
theorem witness_DecimalReferenceAddsAndSubtractsDigits :
    (99 < 100 ∧ 0 < 100) ∧ (decAdcReference 0x99 0x99 true).result = 0x99 ∧ (decAdcReference 0x99 0x99 true).c = true ∧
      (decSbcReference 0x00 0x99 false).result = 0x00 ∧ (decSbcReference 0x00 0x99 false).c = false := by decide

theorem witness_LogicResult :
    (Instr.mnemonic (.andIzp 0x11) = .and ∧ Instr.mnemonic (.oraIzp 0x11) = .ora ∧ Instr.mnemonic (.eorIzp 0x11) = .eor ∧
      modeSource (Instr.mode (.andIzp 0x11)) = some (.mem (.izp 0x11)) ∧
      modeSource (Instr.mode (.oraIzp 0x11)) = some (.mem (.izp 0x11)) ∧
      modeSource (Instr.mode (.eorIzp 0x11)) = some (.mem (.izp 0x11))) ∧
    readSource (.mem (.izp 0x11)) busy = .ok (⟨0x00, false⟩, busy) := ⟨⟨rfl, rfl, rfl, rfl, rfl, rfl⟩, rfl⟩

theorem witness_BitTestResult :
    (Instr.mnemonic (.bitImm 0xFF) = .bit ∧ modeSource (Instr.mode (.bitImm 0xFF)) = some (.imm 0xFF) ∧
      readSource (.imm 0xFF) busy = .ok (⟨0xFF, false⟩, busy)) ∧
    (Instr.mnemonic (.bitAbsx 0xF0 0x2F) = .bit ∧
      modeSource (Instr.mode (.bitAbsx 0xF0 0x2F)) = some (.mem (.absx 0xF0 0x2F)) ∧
      readSource (.mem (.absx 0xF0 0x2F)) busy = .ok (⟨0x7F, true⟩, busy)) := ⟨⟨rfl, rfl, rfl⟩, rfl, rfl, rfl⟩

theorem witness_MemoryBitResult :
    (Instr.mnemonic (.tsbZp 0x10) = .tsb ∧ Instr.mnemonic (.trbZp 0x10) = .trb ∧ Instr.mnemonic (.rmb7 0x10) = .rmb 7 ∧
      Instr.mnemonic (.smb0 0x10) = .smb 0) ∧
    (modeAddress (Instr.mode (.tsbZp 0x10)) = some (.zp 0x10) ∧ modeAddress (Instr.mode (.trbZp 0x10)) = some (.zp 0x10) ∧
      modeAddress (Instr.mode (.rmb7 0x10)) = some (.zp 0x10) ∧ modeAddress (Instr.mode (.smb0 0x10)) = some (.zp 0x10)) ∧
    resolve (.zp 0x10) busy = .ok (⟨0x0010, false⟩, busy) ∧ memRead 0x0010 busy = .ok (0xC0, busy) ∧
    (∃ t, memWrite 0x0010 (0xC0 ||| busy.a) busy = .ok t) ∧ (∃ t, memWrite 0x0010 (0xC0 &&& ~~~busy.a) busy = .ok t) ∧
    (∃ t, memWrite 0x0010 (0xC0 &&& ~~~(BitVec.ofNat 8 (2 ^ 7))) busy = .ok t) ∧
    ∃ t, memWrite 0x0010 (0xC0 ||| BitVec.ofNat 8 (2 ^ 0)) busy = .ok t :=
  ⟨⟨rfl, rfl, rfl, rfl⟩, ⟨rfl, rfl, rfl, rfl⟩, rfl, rfl, ⟨_, rfl⟩, ⟨_, rfl⟩, ⟨_, rfl⟩, _, rfl⟩

theorem witness_MemoryShiftAndStepResult :
    (Instr.mnemonic (.aslAbsx 0xF0 0x2F) = .asl ∧ Instr.mnemonic (.lsrAbsx 0xF0 0x2F) = .lsr ∧
      Instr.mnemonic (.rolAbsx 0xF0 0x2F) = .rol ∧ Instr.mnemonic (.rorAbsx 0xF0 0x2F) = .ror ∧
      Instr.mnemonic (.incAbsx 0xF0 0x2F) = .inc ∧ Instr.mnemonic (.decAbsx 0xF0 0x2F) = .dec) ∧
    (modeAddress (Instr.mode (.aslAbsx 0xF0 0x2F)) = some (.absx 0xF0 0x2F) ∧
      modeAddress (Instr.mode (.incAbsx 0xF0 0x2F)) = some (.absx 0xF0 0x2F)) ∧
    resolve (.absx 0xF0 0x2F) busy = .ok (⟨0x3010, true⟩, busy) ∧ memRead 0x3010 busy = .ok (0x7F, busy) ∧
    (∃ t, memWrite 0x3010 (aslByte busy.p.c 0x7F).result busy = .ok t) ∧
    (∃ t, memWrite 0x3010 (lsrByte busy.p.c 0x7F).result busy = .ok t) ∧
    (∃ t, memWrite 0x3010 (rolByte busy.p.c 0x7F).result busy = .ok t) ∧
    (∃ t, memWrite 0x3010 (rorByte busy.p.c 0x7F).result busy = .ok t) ∧
    (∃ t, memWrite 0x3010 (0x7F + 1) busy = .ok t) ∧ ∃ t, memWrite 0x3010 (0x7F - 1) busy = .ok t :=
  ⟨⟨rfl, rfl, rfl, rfl, rfl, rfl⟩, ⟨rfl, rfl⟩, rfl, rfl, ⟨_, rfl⟩, ⟨_, rfl⟩, ⟨_, rfl⟩, ⟨_, rfl⟩, ⟨_, rfl⟩, _, rfl⟩

theorem witness_CompareResult :
    (Instr.mnemonic (.cmpImm 0x81) = .cmp ∧ Instr.mnemonic (.cpxImm 0x81) = .cpx ∧ Instr.mnemonic (.cpyImm 0x81) = .cpy) ∧
    (modeSource (Instr.mode (.cmpImm 0x81)) = some (.imm 0x81) ∧ modeSource (Instr.mode (.cpxImm 0x81)) = some (.imm 0x81) ∧
      modeSource (Instr.mode (.cpyImm 0x81)) = some (.imm 0x81)) ∧
    readSource (.imm 0x81) busy = .ok (⟨0x81, false⟩, busy) := ⟨⟨rfl, rfl, rfl⟩, ⟨rfl, rfl, rfl⟩, rfl⟩

/-- Both directions of a flag: in `busy` C and V are set, N and Z are clear. -/
theorem witness_RelativeBranchResult :
    (!busy.p.n) = true ∧ busy.p.n = false ∧ (!busy.p.v) = false ∧ busy.p.v = true ∧ (!busy.p.c) = false ∧ busy.p.c = true ∧
      (!busy.p.z) = true ∧ busy.p.z = false := by decide

theorem witness_BitBranchResult :
    (Instr.mnemonic (.bbr0 0x10 0xFD) = .bbr 0 ∧ Instr.mode (.bbr0 0x10 0xFD) = .zprel 0x10 0xFD) ∧
    (Instr.mnemonic (.bbs7 0x10 0x80) = .bbs 7 ∧ Instr.mode (.bbs7 0x10 0x80) = .zprel 0x10 0x80) ∧
    memRead (BitVec.ofNat 16 (0x10 : Byte).toNat) busy = .ok (0xC0, busy) ∧ (!(0xC0 : Byte).getLsbD 0) = true ∧
    (0xC0 : Byte).getLsbD 7 = true := ⟨⟨rfl, rfl⟩, ⟨rfl, rfl⟩, rfl, by decide, by decide⟩

theorem witness_JumpResult :
    (Instr.mnemonic (.jmpAbs 0x00 0x02) = .jmp ∧ modeAddress (Instr.mode (.jmpAbs 0x00 0x02)) = some (.abs 0x00 0x02) ∧
      resolve (.abs 0x00 0x02) busy = .ok (⟨0x0200, false⟩, busy)) ∧
    (Instr.mnemonic (.jmpInd 0xFF 0xFF) = .jmp ∧ modeAddress (Instr.mode (.jmpInd 0xFF 0xFF)) = some (.ind 0xFF 0xFF) ∧
      resolve (.ind 0xFF 0xFF) busy = .ok (⟨0x0090, false⟩, busy)) ∧
    (Instr.mnemonic (.jmpIax 0xF1 0xFF) = .jmp ∧ modeAddress (Instr.mode (.jmpIax 0xF1 0xFF)) = some (.iax 0xF1 0xFF) ∧
      resolve (.iax 0xF1 0xFF) busy = .ok (⟨0x4030, false⟩, busy)) := ⟨⟨rfl, rfl, rfl⟩, ⟨rfl, rfl, rfl⟩, rfl, rfl, rfl⟩

/-- SP = 0x00: the second byte wraps to 0x01FF. -/
theorem witness_JsrResult :
    Memory.wf busy.mem = true ∧ IsRam busy (BitVec.ofNat 16 (256 + busy.sp.toNat)) ∧
      IsRam busy (BitVec.ofNat 16 (256 + (busy.sp.toNat + 255) % 256)) := by decide

theorem witness_RtsResult :
    peek busy (BitVec.ofNat 16 (256 + (busy.sp.toNat + 1) % 256)) = some 0x34 ∧
      peek busy (BitVec.ofNat 16 (256 + (busy.sp.toNat + 2) % 256)) = some 0x12 := by decide

theorem witness_JsrThenRtsReturns :
    Memory.wf busy.mem = true ∧ IsRam busy (stackAddr busy.sp) ∧ IsRam busy (stackAddr (busy.sp - 1)) := by decide

theorem witness_PushAndPullRule :
    (∃ t, memWrite (BitVec.ofNat 16 (256 + busy.sp.toNat)) 0x42 busy = .ok t) ∧
      ∃ t, memRead (BitVec.ofNat 16 (256 + (begin.sp.toNat + 1) % 256))
        { begin with sp := BitVec.ofNat 8 (begin.sp.toNat + 1) } = .ok (0x00, t) := ⟨⟨_, rfl⟩, _, rfl⟩

theorem witness_PushResult :
    (∃ t, memWrite (BitVec.ofNat 16 (256 + busy.sp.toNat)) busy.a busy = .ok t) ∧
    (∃ t, memWrite (BitVec.ofNat 16 (256 + busy.sp.toNat)) busy.x busy = .ok t) ∧
    (∃ t, memWrite (BitVec.ofNat 16 (256 + busy.sp.toNat)) busy.y busy = .ok t) ∧
    ∃ t, memWrite (BitVec.ofNat 16 (256 + busy.sp.toNat)) (busy.p.toByte ||| 0x30) busy = .ok t :=
  ⟨⟨_, rfl⟩, ⟨_, rfl⟩, ⟨_, rfl⟩, _, rfl⟩

theorem witness_PullResult :
    (∃ t, memRead (BitVec.ofNat 16 (256 + (busy.sp.toNat + 1) % 256)) { busy with sp := busy.sp + 1 } = .ok (0x34, t)) ∧
      ∃ t, memRead (BitVec.ofNat 16 (256 + (begin.sp.toNat + 1) % 256)) { begin with sp := begin.sp + 1 } = .ok (0x00, t) :=
  ⟨⟨_, rfl⟩, _, rfl⟩

theorem witness_BrkResult :
    Memory.wf busy.mem = true ∧ (∀ k < 3, IsRam busy (BitVec.ofNat 16 (256 + (busy.sp.toNat + 256 - k) % 256))) ∧
      peek busy 0xFFFE = some 0x00 ∧ peek busy 0xFFFF = some 0x90 := by decide

theorem witness_RtiResult :
    peek busy (BitVec.ofNat 16 (256 + (busy.sp.toNat + 1) % 256)) = some 0x34 ∧
      peek busy (BitVec.ofNat 16 (256 + (busy.sp.toNat + 2) % 256)) = some 0x12 ∧
      peek busy (BitVec.ofNat 16 (256 + (busy.sp.toNat + 3) % 256)) = some 0x80 := by decide

theorem witness_UnassignedOpcodesStop : ¬ WellFormed .undefinedFC ∧ ¬ WellFormed .waiRefused := by decide

theorem witness_RegisterFrame :
    (∃ t, exec (.staAbs 0x34 0x12) busy = .next t) ∧ Instr.mnemonic (.staAbs 0x34 0x12) = .sta ∧
      Instr.mode (.staAbs 0x34 0x12) ≠ .acc := ⟨⟨_, rfl⟩, rfl, by decide⟩

theorem witness_FlagFrame :
    (∃ t, exec (.staAbs 0x34 0x12) busy = .next t) ∧ (∃ t, exec (.bitImm 0xFF) busy = .next t) ∧
      (Instr.mode (.bitImm 0xFF)).tag = .imm := ⟨⟨_, rfl⟩, ⟨_, rfl⟩, rfl⟩

theorem witness_MemoryFrame :
    ((∃ t, exec (.incAbsx 0xF0 0x2F) busy = .next t) ∧ Instr.mnemonic (.incAbsx 0xF0 0x2F) = .inc ∧
      Instr.mode (.incAbsx 0xF0 0x2F) = .mem (.absx 0xF0 0x2F) ∧
      resolve (.absx 0xF0 0x2F) busy = .ok (⟨0x3010, true⟩, busy)) ∧
    (∃ t, exec .php busy = .next t) ∧ (∃ t, exec (.jsr 0x34 0x12) busy = .next t) ∧ (∃ t, exec .brk busy = .next t) ∧
    (∃ t, exec .aslAcc busy = .next t) ∧ ∃ t, exec (.ldaZp 0x10) busy = .next t :=
  ⟨⟨⟨_, rfl⟩, rfl, rfl, rfl⟩, ⟨_, rfl⟩, ⟨_, rfl⟩, ⟨_, rfl⟩, ⟨_, rfl⟩, _, rfl⟩

/-- RAM everywhere; then a map with ROM, and one that is a peripheral, for loads, pulls and a return. -/
theorem witness_EveryAssignedInstructionCompletes :
    (WellFormed (.jsr 0xFF 0xFF) ∧ AllRam State.reset) ∧
    (Covered romLow ∧ NoPeripheral romLow ∧ (∃ a, IsRom romLow a) ∧ Covered withDevice) ∧
    (∀ i ∈ [Instr.aslAcc, .ldaAbs 0x00 0x00, .ldaIzy 0xFF, .adcImm 0x99, .cmpAbsx 0xFF 0xFF, .pla, .rts, .rti,
        .bbs7 0xFF 0x80, .jmpIax 0xFF 0xFF, .stp],
      WellFormed i ∧
      i.mnemonic ∉ [.sta, .stx, .sty, .stz, .tsb, .trb, .pha, .phx, .phy, .php, .jsr, .brk] ∧
      (i.mnemonic ∈ [.asl, .lsr, .rol, .ror, .inc, .dec] → i.mode = .acc) ∧
      ∀ n : Fin 8, i.mnemonic ≠ .rmb n ∧ i.mnemonic ≠ .smb n) :=
  ⟨⟨by decide, reset_allRam⟩, ⟨romLow_covered, by decide, ⟨0x0000, by decide⟩, withDevice_covered⟩, by decide⟩

theorem witness_StepKeepsInvariant : SoundState busy ∧ (∃ t, step busy = .next t) ∧ SoundState mixed ∧ ∃ t, step mixed = .next t :=
  ⟨by decide, next_of (by decide), by decide, next_of (by decide)⟩

theorem witness_ReachableStatesSatisfyInvariant : Reachable State.reset := .reset

theorem witness_CycleCountGrowsByTwoToSeven :
    (∃ t, step busy = .next t) ∧ busy.cycleCount.toNat + 7 < 2 ^ 64 := ⟨next_of (by decide), by decide⟩

theorem witness_TerminalFlagOnlyWithoutProgress :
    (∃ t, exec (.jmpAbs 0x00 0x02) busy = .next t ∧ t.cp = busy.cp) ∧ (∃ o t, report busy = .success o t) :=
  ⟨⟨_, rfl, rfl⟩, _, _, rfl⟩

theorem witness_StepErrorKinds :
    step (edge 0 0xAD) = .fault (.unmappedAddress 0x8000) ∧
      exec (.staAbs 0x00 0xC0) mixed = .fault (.writeToReadOnly 0xC000) ∧
      (∃ op a, exec .undefined02 mixed = .fault (.unknownOpcode op a)) ∧
      exec (.ldaAbs 0x00 0x80) mixed = .fault (.unmappedAddress 0x8000) := ⟨rfl, rfl, ⟨_, _, rfl⟩, rfl⟩

theorem witness_CycleCountBreakAndInterruptFlagsAreInert :
    (∃ t, exec .php busy = .next t) ∧ (∃ t, exec .plp busy = .next t) ∧ Instr.mnemonic .plp ∉ [Mnemonic.php, .brk] :=
  ⟨⟨_, rfl⟩, ⟨_, rfl⟩, by decide⟩

theorem witness_HostRegisterOperations :
    (255 < 256 ∧ 65535 < 65536 ∧ 256 ≤ 256 ∧ 65536 ≤ 65536 ∧ Field.status ≠ Field.cp) ∧
      peek busy 0xFFFC = some 0x00 ∧ peek busy 0xFFFD = some 0x80 := by decide

/-- RAM over the range 0xFFFF~0x0001 alone, a fill that wraps. -/
def ends : State := { begin with regions := [⟨.ram, 0x0000, 0x0002⟩, ⟨.ram, 0xFFFF, 0x0001⟩] }

theorem witness_HostMemoryWrites_succeeds :
    Memory.wf ends.mem = true ∧
    (∀ a : Addr, (a.toNat + 65536 - (0xFFFF : Addr).toNat) % 65536 <
      ((0x0001 : Addr).toNat + 65536 - (0xFFFF : Addr).toNat) % 65536 + 1 → IsRam ends a) ∧
    65536 < (0xFFFF : Addr).toNat + [(0x01 : Byte), 0x02].length ∧
    ((0xFFFF : Addr).toNat + [(0x01 : Byte)].length ≤ 65536 ∧
      ∀ k, k < [(0x01 : Byte)].length → IsRam ends (0xFFFF + BitVec.ofNat 16 k)) ∧
    (∃ t, memoryWrite 0xFFFF [0x01] ends = .done t) := by
  refine ⟨rfl, fun a h => ?_, by decide, ⟨by decide, by decide⟩, _, rfl⟩
  have ha := a.isLt
  simp at h
  have : a.toNat = 0 ∨ a.toNat = 1 ∨ a.toNat = 65535 := by omega
  rcases this with h | h | h
  · rw [show a = 0x0000 from BitVec.eq_of_toNat_eq h]; rfl
  · rw [show a = 0x0001 from BitVec.eq_of_toNat_eq h]; rfl
  · rw [show a = 0xFFFF from BitVec.eq_of_toNat_eq h]; rfl

/-- A write that reaches the hole after one byte and after none, a fill likewise. -/
theorem witness_HostMemoryWrites_fails :
    ∃ u, memoryWrite 0x7FFF [0x01] mixed = .done u ∧ memoryFill 0x7FFF (0x7FFF + BitVec.ofNat 16 (1 - 1)) (some 0x01) mixed = .done u ∧
      fabricWrite (0x7FFF + BitVec.ofNat 16 1) 0x01 u = (some (.unmappedAddress 0x8000), u) ∧
      Memory.wf mixed.mem = true ∧ IsRam mixed 0x7FFF ∧
      (0x7FFF : Addr).toNat + [(0x01 : Byte)].length + [(0x02 : Byte)].length < 65536 ∧
      memoryWrite 0xFFFF [] mixed = .done mixed ∧
      fabricWrite (0xFFFF + BitVec.ofNat 16 0) 0x01 mixed = (some (.writeToReadOnly 0xFFFF), mixed) ∧
      1 ≤ ((0x8000 : Addr).toNat + 65536 - (0x7FFF : Addr).toNat) % 65536 :=
  ⟨_, rfl, rfl, rfl, by decide, by decide, by decide, rfl, rfl, by decide⟩

theorem witness_SliceReadsAndWrites_read :
    (1 ≤ 1 ∧ lookup mixed.regions 0x8000 = none) ∧
    (lookup mixed.regions 0x7FFF ≠ none ∧ ∃ k, 1 ≤ k ∧ k < 2 ∧ lookup mixed.regions (0x7FFF + BitVec.ofNat 16 k) = none) ∧
    (∀ k, k < 2 → lookup mixed.regions (0xFFFF + BitVec.ofNat 16 k) ≠ none ∧
      peek mixed (0xFFFF + BitVec.ofNat 16 k) ≠ none) ∧
    (∀ k, k < 2 → lookup withDevice.regions (0xFFFF + BitVec.ofNat 16 k) ≠ none) :=
  ⟨by decide, ⟨by decide, 1, by decide⟩, by decide, by decide⟩

/-- A slice that wraps over RAM, one at a hole, one into a hole, and one into ROM after a byte of RAM. -/
theorem witness_SliceReadsAndWrites_write :
    ((∀ k, k < [(0x01 : Byte), 0x02, 0x03].length → IsRam ends (0xFFFF + BitVec.ofNat 16 k)) ∧
      ∃ t, writeSlice 0xFFFF [0x01, 0x02, 0x03] ends = .done t) ∧
    (1 ≤ [(0x01 : Byte)].length ∧ lookup mixed.regions 0x8000 = none) ∧
    (lookup mixed.regions 0x7FFF ≠ none ∧ 1 ≤ 1 ∧ 1 < [(0x01 : Byte), 0x02].length ∧
      lookup mixed.regions (0x7FFF + BitVec.ofNat 16 1) = none) ∧
    ((∀ k, k < [(0x01 : Byte)].length + 1 + [(0x03 : Byte)].length → lookup romLow.regions (0xFFFF + BitVec.ofNat 16 k) ≠ none) ∧
      ∃ u, writeSlice 0xFFFF [0x01] romLow = .done u ∧
        fabricWrite (0xFFFF + BitVec.ofNat 16 [(0x01 : Byte)].length) 0x02 u = (some (.writeToReadOnly 0x0000), u)) ∧
    ∃ e t, writeSlice 0x7FFF [0x01, 0x02] mixed = .failed e t :=
  ⟨⟨by decide, _, rfl⟩, by decide, by decide, ⟨by decide, _, rfl, rfl⟩, _, _, rfl⟩

theorem witness_RunEndsAtTerminalStepOrError :
    (∃ t, step busy = .next t) ∧ step (edge 0 0xAD) = .fault (.unmappedAddress 0x8000) ∧
    (∃ o t, report busy = .success o t ∧ o.terminal = true ∧ o.instr = .stp) ∧
    (∃ o t, report State.reset = .success o t ∧ o.terminal = true ∧ o.instr ≠ .stp) ∧
    (∃ o t, report mixed = .success o t ∧ o.terminal = false ∧ (Condition.answer true).eval t = (.ok true, t) ∧
      (Condition.answer false).eval t = (.ok false, t) ∧
      (Condition.byte 0x8000 fun _ => .answer true).eval t = (.error (.unmappedAddress 0x8000), t)) :=
  ⟨next_of (by decide), rfl, ⟨_, _, rfl, rfl, rfl⟩, ⟨_, _, rfl, rfl, by decide⟩, _, _, rfl, rfl, rfl, rfl, rfl⟩

end Sys2Proof.Tests
end

/-! # Proofs: the memory fabric (20_memory.md) -/

namespace Sys2Proof.Machine

/-! ## Lookup -/

/-- No subsystem is found exactly when no range holds the address (20_memory.md R37). -/
theorem lookup_eq_none_iff {rs : List Region} {a : Addr} : lookup rs a = none ↔ ∀ r ∈ rs, r.holds a = false := by
  simp [lookup]

theorem mem_of_lookup_eq_some {rs : List Region} {a : Addr} {r : Region} (h : lookup rs a = some r) :
    r ∈ rs ∧ r.holds a = true :=
  ⟨List.mem_of_find?_eq_some h, List.find?_some (p := fun q : Region => q.holds a) h⟩

/-- In a sound fabric the order of the list does not matter: what the reordered list finds is in the sound one, where it
is the only one that holds the address. -/
theorem lookup_perm {rs qs : List Region} (hok : fabricOk qs = true) (hp : rs.Perm qs) (a : Addr) :
    lookup rs a = lookup qs a := by
  cases h : lookup rs a with
  | some r =>
    obtain ⟨hr, ha⟩ := mem_of_lookup_eq_some h
    exact (lookup_eq_some hok (hp.mem_iff.1 hr) ha).symm
  | none => exact (lookup_eq_none_iff.2 fun r hr => lookup_eq_none_iff.1 h r (hp.mem_iff.2 hr)).symm

/-- A write of an unmapped address fails (R39). -/
theorem memWrite_unmapped {a : Addr} {s : State} (h : lookup s.regions a = none) (v : Byte) :
    memWrite a v s = .error (.unmappedAddress a) := by
  simp [memWrite, fabricWrite, h]

/-- Settles O6: the range that holds an address is the only one, so the order of the list does not matter, and an address
that none holds fails both accesses. -/
theorem lookupIsUnique : Obligations.LookupIsUnique := by
  intro s a v hok
  refine ⟨fun r hr ha => lookup_eq_some hok hr ha, fun rs hp => lookup_perm hok hp a, fun hno => ?_⟩
  have hl : lookup s.regions a = none := lookup_eq_none_iff.2 hno
  exact ⟨hl, memRead_unmapped hl, memWrite_unmapped hl v⟩

/-! ## The fabric after its reset -/

/-- The one subsystem of the reset fabric, a RAM of 64 KiB, holds every address (R43). -/
theorem lookup_fabricReset (s : State) (a : Addr) :
    lookup (fabricReset s).regions a = some { kind := .ram, base := 0x0000, len := 0x10000 } := by
  simpa [lookup, fabricReset, Region.holds] using a.isLt

theorem allRam_fabricReset (s : State) : AllRam (fabricReset s) := fun a => by
  rw [IsRam, lookup_fabricReset]; rfl

theorem peek_fabricReset (s : State) (a : Addr) : peek (fabricReset s) a = some 0x00 := by
  rw [peek, lookup_fabricReset]; rfl

/-- Settles O2: every address of the reset fabric lies in its one RAM, whose store lists nothing. -/
theorem resetFabricReadsZeroAndIsWritable : Obligations.ResetFabricReadsZeroAndIsWritable := by
  intro s a v
  refine ⟨memRead_of_peek (peek_fabricReset s a), ?_, _, memWrite_ram (allRam_fabricReset s a) v⟩
  rw [lookup_fabricReset]; rfl

/-! ## Operands in ROM -/

/-- A read of ROM answers and changes nothing (R34). -/
theorem memRead_rom {a : Addr} {s : State} (h : IsRom s a) : memRead a s = .ok (Memory.read s.mem a.toNat, s) :=
  memRead_of_peek (by rw [peek_eq, (isRom_iff s a).1 h])

/-- Resolving an operand leaves ROM where it was. -/
theorem isRom_of_resolve {m : AddrMode} {s s1 : State} {r : Resolved} (h : resolve m s = .ok (r, s1)) {a : Addr}
    (ha : IsRom s a) : IsRom s1 a :=
  (isRom_congr (resolve_ok h).2 a).2 ha

/-- The shapes that write their memory operand: the stores and the read-modify-write instructions. -/
inductive Shape.WritesOperand (m : AddrMode) : Shape → Prop where
  | store (v : State → Byte) : WritesOperand m (.store v m)
  | testAndWrite (f : Byte → Byte → Byte) : WritesOperand m (.testAndWrite f m)
  | modifyBit (f : Byte → Byte) : WritesOperand m (.modifyBit f m)
  | shiftMem (f : Bool → Byte → ShiftResult) : WritesOperand m (.shiftMem f m)
  | stepMem (f : Byte → Byte) : WritesOperand m (.stepMem f m)

/-- The mnemonics of R35 have such a shape, in each of their memory forms. -/
theorem shape_writesOperand {i : Instr} {m : AddrMode} (hm : i.mode = .mem m)
    (hi : i.mnemonic ∈ [.sta, .stx, .sty, .stz, .asl, .lsr, .rol, .ror, .inc, .dec, .tsb, .trb] ∨
      ∃ n, i.mnemonic = .rmb n ∨ i.mnemonic = .smb n) : (shape i).WritesOperand m := by
  simp only [List.mem_cons, List.not_mem_nil, or_false] at hi
  rw [shape, hm]
  rcases hi with (h | h | h | h | h | h | h | h | h | h | h | h) | ⟨n, h | h⟩ <;> rw [h] <;> constructor

/-- A shape that writes its operand fails when the operand's address is ROM's: the reads before the write answer. -/
theorem Shape.WritesOperand.run_rom {sh : Shape} {m : AddrMode} (hw : sh.WritesOperand m) (i : Instr) {s s1 : State}
    {r : Resolved} (hr : resolve m s = .ok (r, s1)) (hrom : IsRom s r.ea) :
    sh.run i s = .fault (.writeToReadOnly r.ea) := by
  have h1 : IsRom s1 r.ea := isRom_of_resolve hr hrom
  cases hw with
  | store v => simp [Shape.run, Machine.store, hr, memWrite_rom h1]
  | testAndWrite f =>
    have h2 : ∀ p, IsRom (setStatus p s1) r.ea := fun _ => h1
    simp [Shape.run, Machine.testAndWrite, hr, memRead_rom h1, memWrite_rom (h2 _)]
  | modifyBit f => simp [Shape.run, Machine.modifyBit, hr, memRead_rom h1, memWrite_rom h1]
  | shiftMem f => simp [Shape.run, Machine.shiftMem, hr, memRead_rom h1, memWrite_rom h1]
  | stepMem f => simp [Shape.run, Machine.stepMem, hr, memRead_rom h1, memWrite_rom h1]

/-! ## Pushes to ROM -/

/-- A push fails where the stack byte is ROM's. -/
theorem push_rom {s : State} (h : IsRom s (stackAddr s.sp)) (v : Byte) :
    push v s = .error (.writeToReadOnly (stackAddr s.sp)) := by
  rw [push, memWrite_rom h, withState_error]

theorem pushWord_rom_high {s : State} (h : IsRom s (stackAddr s.sp)) (w : Addr) :
    pushWord w s = .error (.writeToReadOnly (stackAddr s.sp)) := by
  rw [pushWord, push_rom h, withState_error]

theorem pushWord_rom_low {w : Addr} {s s1 : State} (h1 : push (highByte w) s = .ok s1)
    (h : IsRom s (stackAddr (s.sp - 1))) : pushWord w s = .error (.writeToReadOnly (stackAddr (s.sp - 1))) := by
  obtain ⟨he, hmap, -⟩ := push_frame h1
  have hsp : s1.sp = s.sp - 1 := by rw [he]
  rw [pushWord, h1, withState_ok, ← hsp]
  exact push_rom ((isRom_congr hmap _).2 (hsp ▸ h)) _

theorem takeBreak_rom_status {s s1 : State} (h1 : pushWord (offsetAddr s.cp 2) s = .ok s1)
    (h : IsRom s (stackAddr (s.sp - 2))) : takeBreak s = .error (.writeToReadOnly (stackAddr (s.sp - 2))) := by
  obtain ⟨he, hmap, -⟩ := pushWord_ok h1
  have hsp : s1.sp = s.sp - 2 := by rw [he]
  rw [takeBreak, h1, withState_ok, ← hsp, push_rom ((isRom_congr hmap _).2 (hsp ▸ h)), withState_error]

/-- The one instruction with JSR's mnemonic (30_encoding.md R66). -/
theorem eq_jsr_of_mnemonic {i : Instr} (h : i.mnemonic = .jsr) : ∃ lo hi, i = .jsr lo hi := by
  cases i with
  | jsr lo hi => exact ⟨lo, hi, rfl⟩
  | _ => cases h

theorem eq_brk_of_mnemonic {i : Instr} (h : i.mnemonic = .brk) : i = .brk := by
  cases i with
  | brk => rfl
  | _ => cases h

/-- BRK ends with an error of its entry. -/
theorem exec_brk_of_takeBreak_error {s : State} {e : Fault} (h : takeBreak s = .error e) : exec .brk s = .fault e := by
  show breakTrap _ s = _
  rw [breakTrap, h, withState_error, toResult_error]

/-- JSR and BRK end with an error of pushing the return address. -/
theorem exec_of_pushWord_error {i : Instr} {s : State} {e : Fault} (hi : i.mnemonic ∈ [.jsr, .brk])
    (h : pushWord (offsetAddr s.cp 2) s = .error e) : exec i s = .fault e := by
  simp only [List.mem_cons, List.not_mem_nil, or_false] at hi
  rcases hi with hi | hi
  · obtain ⟨lo, hi, rfl⟩ := eq_jsr_of_mnemonic hi
    show callSubroutine _ _ s = _
    rw [callSubroutine, h, withState_error, toResult_error]
  · rw [eq_brk_of_mnemonic hi]
    exact exec_brk_of_takeBreak_error (by rw [takeBreak, h, withState_error])

/-- The shape of the instructions that push one byte (49_stack_flags_misc.md R301 to R307). -/
theorem shape_pushByte {i : Instr} (hi : i.mnemonic ∈ [.pha, .php, .phx, .phy]) : ∃ v, shape i = .pushByte v := by
  simp only [List.mem_cons, List.not_mem_nil, or_false] at hi
  rcases hi with h | h | h | h <;> rw [shape, h] <;> exact ⟨_, rfl⟩

theorem exec_pushByte_rom {i : Instr} {s : State} (hi : i.mnemonic ∈ [.pha, .php, .phx, .phy])
    (h : IsRom s (stackAddr s.sp)) : exec i s = .fault (.writeToReadOnly (stackAddr s.sp)) := by
  obtain ⟨v, hv⟩ := shape_pushByte hi
  rw [exec_eq_shape, hv, Shape.run, pushByte, push_rom h, withState_error, toResult_error]

/-- Settles O4: every access before the write answers and leaves ROM where it was, so the write meets ROM and its error
is the instruction's. -/
theorem storeToRomFails : Obligations.StoreToRomFails := by
  refine ⟨fun i m r s s1 hm hi hr hrom => ?_, fun i s hi hrom => ?_, fun i s s1 hi h1 hrom => ?_, fun s s1 h1 hrom => ?_⟩
  · rw [exec_eq_shape]
    exact (shape_writesOperand hm hi).run_rom i hr hrom
  · have hi : i.mnemonic ∈ [.jsr, .brk] ++ [.pha, .php, .phx, .phy] := hi
    rcases List.mem_append.1 hi with hi | hi
    · exact exec_of_pushWord_error hi (pushWord_rom_high hrom _)
    · exact exec_pushByte_rom hi hrom
  · exact exec_of_pushWord_error hi (pushWord_rom_low h1 hrom)
  · exact exec_brk_of_takeBreak_error (takeBreak_rom_status h1 hrom)

end Sys2Proof.Machine

/-! # Proofs: addressing modes (40_addressing_modes.md) -/

namespace Sys2Proof.Machine

/-- A zero-page pointer from its two reads, the second in the state that the first leaves: a pointer byte may lie in a
peripheral, which moves when it is read. -/
theorem memRead16zp_of_memRead {z lo hi : Byte} {s s1 s2 : State} (h1 : memRead (zext16 z) s = .ok (lo, s1))
    (h2 : memRead (zext16 (z + 1)) s1 = .ok (hi, s2)) : memRead16zp z s = .ok (word lo hi, s2) := by
  rw [memRead16zp, h1, withAnswer_ok, h2, withAnswer_ok]

/-- The high byte's address as a number: the byte sum `z + 1` wraps to 0, so it stays in page 0 (R101). -/
theorem zext16_add_one (z : Byte) : zext16 (z + 1) = BitVec.ofNat 16 ((z.toNat + 1) % 256) :=
  zext16_add z 1

/-- Settles O15: the two addresses read are the numbers of R101, and the word is its two bytes, the low one first. -/
theorem zeroPagePointerWrapsInPageZero : Obligations.ZeroPagePointerWrapsInPageZero := by
  intro z lo hi s s1 s2 h1 h2
  rw [← zext16_eq] at h1
  rw [← zext16_add_one] at h2
  rw [← word_eq]
  exact memRead16zp_of_memRead h1 h2

end Sys2Proof.Machine

/-! # Proofs: arithmetic (42_arithmetic.md) -/

namespace Sys2Proof.Machine

/-- Masking with the sign bit tests bit 7. -/
theorem and_signBit_ne_zero_iff (b : Byte) : b &&& 0x80 ≠ 0 ↔ b.getLsbD 7 = true := by
  rw [show (0x80 : Byte) = BitVec.twoPow 8 7 from rfl, BitVec.and_twoPow]
  cases b.getLsbD 7 <;> decide

theorem addBinary_result_toNat (a m : Byte) (c : Bool) :
    (addBinary a m c).result.toNat = (a.toNat + m.toNat + c.toNat) % 256 :=
  BitVec.toNat_ofNat ..

/-- SRC's formula for V (R150). -/
theorem addBinary_v (a m : Byte) (c : Bool) :
    (addBinary a m c).v =
      decide ((a ^^^ (addBinary a m c).result) &&& (m ^^^ (addBinary a m c).result) &&& 0x80 ≠ 0) :=
  rfl

/-- SRC's formula read as signs: V is set when the result's sign differs from the sign of both operands. -/
theorem addBinary_v_iff_signs_differ (a m : Byte) (c : Bool) :
    (addBinary a m c).v = true ↔
      ¬(128 ≤ a.toNat ↔ 128 ≤ (addBinary a m c).result.toNat) ∧
        ¬(128 ≤ m.toNat ↔ 128 ≤ (addBinary a m c).result.toNat) := by
  rw [addBinary_v, decide_eq_true_iff, and_signBit_ne_zero_iff, BitVec.getLsbD_and, BitVec.getLsbD_xor,
    BitVec.getLsbD_xor]
  simp only [getLsbD_seven, Bool.and_eq_true, bne_iff_ne, ne_eq, decide_eq_decide]

/-- A sign can differ from both operands' only when they agree, and then exactly when the signed sum, carry included,
leaves the range of a signed byte. -/
theorem addBinary_v_iff_signed_overflow (a m : Byte) (c : Bool) :
    (addBinary a m c).v = true ↔ a.toInt + m.toInt + c.toNat < -128 ∨ 127 < a.toInt + m.toInt + c.toNat := by
  have ha : a.toNat < 256 := a.isLt
  have hm : m.toNat < 256 := m.isLt
  have hc : c.toNat ≤ 1 := Bool.toNat_le c
  rw [addBinary_v_iff_signs_differ, addBinary_result_toNat, BitVec.toInt_eq_toNat_cond a, BitVec.toInt_eq_toNat_cond m]
  omega

/-- Settles O21: the sum, C, Z and SRC's formula for V are the adder's definition; N is the result's bit 7, and V's signed
reading compares the three signs. -/
theorem binaryAdderRule : Obligations.BinaryAdderRule := by
  intro a m c
  exact ⟨addBinary_result_toNat a m c, rfl, addBinary_v a m c, addBinary_v_iff_signed_overflow a m c,
    getLsbD_seven (addBinary a m c).result, rfl⟩

end Sys2Proof.Machine

/-! # Proofs: the stack (49_stack_flags_misc.md) -/

namespace Sys2Proof.Machine

/-- One less modulo 256 as a number: 0 wraps to 255. -/
theorem byte_sub_one_eq (b : Byte) : b - 1 = BitVec.ofNat 8 (b.toNat + 255) := by
  apply BitVec.eq_of_toNat_eq
  rw [BitVec.toNat_sub, BitVec.toNat_ofNat, Nat.add_comm]; rfl

/-- One more modulo 256 as a number: 255 wraps to 0. -/
theorem byte_add_one_eq (b : Byte) : b + 1 = BitVec.ofNat 8 (b.toNat + 1) := by
  rw [BitVec.ofNat_add, BitVec.ofNat_toNat, BitVec.setWidth_eq]; rfl

/-- The address that a pull reads. -/
theorem stackAddr_add_one_eq (sp : Byte) : stackAddr (sp + 1) = BitVec.ofNat 16 (256 + (sp.toNat + 1) % 256) := by
  rw [stackAddr_eq, BitVec.toNat_add]; rfl

/-- A push from its write: it answers with the state that the write leaves, SP one less. -/
theorem push_of_memWrite {v : Byte} {s s1 : State} (h : memWrite (stackAddr s.sp) v s = .ok s1) :
    push v s = .ok (setReg .sp (s.sp - 1) s1) := by
  have hs : s1.sp = s.sp := by rw [(memWrite_frame h).1]
  rw [push, h, withState_ok, hs]

/-- A pull is the read of the stack byte in the state whose SP is one more. -/
theorem pull_eq_memRead (s : State) : pull s = memRead (stackAddr (s.sp + 1)) (setReg .sp (s.sp + 1) s) :=
  rfl

/-- Settles O39: the addresses and the new SP are R300's numbers; the write of a push leaves SP, so one less counts from
the SP before it, and the read of a pull leaves the SP that it was given. -/
theorem pushAndPullRule : Obligations.PushAndPullRule := by
  refine ⟨fun v s s1 hw => ?_, fun v s s1 hr => ?_⟩
  · rw [← stackAddr_eq] at hw
    rw [← byte_sub_one_eq]
    exact push_of_memWrite hw
  · rw [← stackAddr_add_one_eq, ← byte_add_one_eq] at hr
    have hp : pull s = .ok (v, s1) := (pull_eq_memRead s).trans hr
    rw [← byte_add_one_eq]
    exact ⟨hp, by rw [(pull_ok hp).1]⟩

end Sys2Proof.Machine

/-! # Proofs: the invariant of the state (10_state.md R22, 20_memory.md R31) -/

namespace Sys2Proof.Machine

/-- Whether the ranges are sound is a matter of the fabric's map. -/
theorem fabricOk_congr {s t : State} (hm : fabricMap t = fabricMap s) : fabricOk t.regions = fabricOk s.regions := by
  rw [← fabricOk_map, ← fabricOk_map s.regions]
  exact congrArg fabricOk hm

/-- What accesses lead to is as sound as what they start from. -/
theorem FabricStep.sound {s t : State} (h : FabricStep s t) (hs : SoundState s) : SoundState t := by
  obtain ⟨hwf, hok, hbacked⟩ := hs
  exact ⟨h.wf hwf, (fabricOk_congr h.map).trans hok, h.backed hbacked⟩

/-- Settles O50. -/
theorem invariantAtReset : Obligations.InvariantAtReset := by
  unfold Obligations.InvariantAtReset
  decide

/-- Settles O51: a step is made of accesses and register updates, which keep the map, the canonical form and the backing. -/
theorem stepKeepsInvariant : Obligations.StepKeepsInvariant :=
  fun _ _ hs h => (step_fabricStep h).sound hs

/-- Settles O5: the map and what is not RAM are kept by every access. -/
theorem stepKeepsFabricMapAndRom : Obligations.StepKeepsFabricMapAndRom := by
  intro s t h
  have hf := step_fabricStep h
  refine ⟨hf.map, fun a ha => ⟨(isRom_congr hf.map a).2 ha, hf.fixed a fun hram => ?_⟩⟩
  rw [isRam_iff, (isRom_iff s a).1 ha] at hram
  cases hram

/-! ## Attaching a subsystem -/

/-- The region an attached subsystem gets. -/
def Subsystem.region (sub : Subsystem) (base : Nat) : Region :=
  { kind := sub.kind, base := BitVec.ofNat 16 base, len := sub.len }

@[simp] theorem Subsystem.region_len (sub : Subsystem) (base : Nat) : (sub.region base).len = sub.len := rfl

/-- The state a successful `attach` leaves (20_memory.md R42). -/
def attached (sub : Subsystem) (base : Nat) (s : State) : State :=
  setRegions (s.regions ++ [sub.region base])
    (setMem (writeBytes (Memory.clear s.mem base sub.len) base sub.contents) s)

/-- The ranges `attach` accepts: not empty, inside the address space, apart from every range that is there. -/
structure Attachable (sub : Subsystem) (base : Nat) (s : State) : Prop where
  pos : 1 ≤ sub.len
  le : base + sub.len ≤ 65536
  apart : ∀ r ∈ s.regions, overlaps base sub.len r = false

theorem attach_of_attachable {sub : Subsystem} {base : Nat} {s : State} (h : Attachable sub base s) :
    attach sub base s = .done (attached sub base s) := by
  have hpre : ¬(sub.len = 0 ∨ 65536 < base + sub.len) := by have := h.pos; have := h.le; omega
  have hany : s.regions.any (overlaps base sub.len) = false := by
    simpa only [List.any_eq_false, Bool.not_eq_true] using h.apart
  simp [attach, hpre, hany, attached, Subsystem.region]

theorem attach_cases (sub : Subsystem) (base : Nat) (s : State) :
    Attachable sub base s ∨ ∃ e, attach sub base s = .failed e s := by
  unfold attach
  split
  · exact .inr ⟨_, rfl⟩
  · rename_i hpre
    split
    · exact .inr ⟨_, rfl⟩
    · rename_i hany
      refine .inl ⟨by omega, by omega, fun r hr => ?_⟩
      rw [Bool.not_eq_true, List.any_eq_false] at hany
      simpa using hany r hr

/-- Only an acceptable range is joined. -/
theorem attach_done {sub : Subsystem} {base : Nat} {s t : State} (h : attach sub base s = .done t) :
    Attachable sub base s ∧ t = attached sub base s := by
  rcases attach_cases sub base s with ha | ⟨e, he⟩
  · rw [attach_of_attachable ha] at h
    cases h
    exact ⟨ha, rfl⟩
  · rw [he] at h; cases h

theorem Attachable.base_toNat {sub : Subsystem} {base : Nat} {s : State} (h : Attachable sub base s) :
    (sub.region base).base.toNat = base := by
  have := h.pos
  have := h.le
  exact Nat.mod_eq_of_lt (by omega : base < 65536)

/-- The new range holds exactly the addresses asked for. -/
theorem Attachable.holds_iff {sub : Subsystem} {base : Nat} {s : State} (h : Attachable sub base s) (a : Addr) :
    (sub.region base).holds a = true ↔ base ≤ a.toNat ∧ a.toNat < base + sub.len := by
  simp [Region.holds, h.base_toNat]

theorem Attachable.fits {sub : Subsystem} {base : Nat} {s : State} (h : Attachable sub base s) :
    (sub.region base).fits = true := by
  rw [Region.fits, h.base_toNat, Bool.and_eq_true, decide_eq_true_eq, decide_eq_true_eq]
  exact ⟨h.pos, h.le⟩

theorem Attachable.disjoint {sub : Subsystem} {base : Nat} {s : State} (h : Attachable sub base s) {r : Region}
    (hr : r ∈ s.regions) : r.disjoint (sub.region base) = true := by
  have hap := h.apart r hr
  rw [Region.disjoint]
  simp only [overlaps, h.base_toNat, Subsystem.region_len, Bool.not_eq_true', Bool.and_eq_false_iff] at hap ⊢
  exact hap.symm

/-- No subsystem that was there holds an address of the new range. -/
theorem Attachable.lookup_eq_none {sub : Subsystem} {base : Nat} {s : State} (h : Attachable sub base s) {a : Addr}
    (hlo : base ≤ a.toNat) (hhi : a.toNat < base + sub.len) : lookup s.regions a = none := by
  refine lookup_eq_none_iff.2 fun r hr => ?_
  have hap := h.apart r hr
  simp only [overlaps, Bool.and_eq_false_iff, decide_eq_false_iff_not] at hap
  simp only [Region.holds, Bool.and_eq_false_iff, decide_eq_false_iff_not]
  omega

/-- Inside the new range the new subsystem is found. -/
theorem Attachable.lookup_inside {sub : Subsystem} {base : Nat} {s : State} (h : Attachable sub base s) {a : Addr}
    (hlo : base ≤ a.toNat) (hhi : a.toNat < base + sub.len) :
    lookup (attached sub base s).regions a = some (sub.region base) := by
  rw [attached, setRegions_regions, lookup_append, h.lookup_eq_none hlo hhi, (h.holds_iff a).2 ⟨hlo, hhi⟩]
  rfl

/-- Outside it the lookup is as before. -/
theorem Attachable.lookup_outside {sub : Subsystem} {base : Nat} {s : State} (h : Attachable sub base s) {a : Addr}
    (ha : a.toNat < base ∨ base + sub.len ≤ a.toNat) : lookup (attached sub base s).regions a = lookup s.regions a := by
  have hno : ¬(sub.region base).holds a = true := by rw [h.holds_iff]; omega
  rw [attached, setRegions_regions, lookup_append, if_neg hno, Option.or_none]

theorem Attachable.wf {sub : Subsystem} {base : Nat} {s : State} (h : Attachable sub base s)
    (hw : Memory.wf s.mem = true) : Memory.wf (attached sub base s).mem = true :=
  writeBytes_wf (by have := h.le; have := sub.contents_le; omega) (Memory.clear_wf hw)

theorem Attachable.fabricOk {sub : Subsystem} {base : Nat} {s : State} (h : Attachable sub base s)
    (hok : fabricOk s.regions = true) : fabricOk (attached sub base s).regions = true :=
  fabricOk_append hok h.fits fun _ hr => h.disjoint hr

/-- A subsystem created with bytes is a ROM, whose bytes stand in the store. -/
theorem Subsystem.region_stores {sub : Subsystem} (hc : sub.contents ≠ []) (base : Nat) :
    (sub.region base).stores = true := by
  cases sub with
  | ram len => rfl
  | rom contents => rfl
  | peripheral len dev st => exact absurd rfl hc

/-- Clearing a range leaves the cells outside it. -/
theorem Memory.mem_clear {m : Memory} {base len : Nat} {c : Host.Cell} :
    c ∈ Memory.clear m base len ↔ c ∈ m ∧ (c.1 < base ∨ base + len ≤ c.1) := by
  simp only [Memory.clear, List.mem_filter, Bool.not_eq_true', Bool.and_eq_false_iff, decide_eq_false_iff_not,
    Nat.not_le, Nat.not_lt]

/-- A store in canonical form lists 16-bit addresses. -/
theorem Memory.lt_of_mem {m : Memory} {c : Host.Cell} (hw : Memory.wf m = true) (hc : c ∈ m) : c.1 < 65536 := by
  induction m with
  | nil => cases hc
  | cons d rest ih =>
    obtain ⟨hk, -, -, hrest⟩ := Memory.wf_cons.1 hw
    rcases List.mem_cons.1 hc with rfl | hc
    · exact hk
    · exact ih hrest hc

theorem Attachable.storeBacked {sub : Subsystem} {base : Nat} {s : State} (h : Attachable sub base s)
    (hw : Memory.wf s.mem = true) (hb : storeBacked s = true) : storeBacked (attached sub base s) = true := by
  simp only [Machine.storeBacked, List.all_eq_true] at hb ⊢
  intro c hc
  have hlen := sub.contents_le
  have hle := h.le
  rcases writeBytes_mem hc with hc | ⟨hlo, hhi⟩
  · obtain ⟨hm, hout⟩ := Memory.mem_clear.1 hc
    have ha : (BitVec.ofNat 16 c.1).toNat = c.1 := Nat.mod_eq_of_lt (Memory.lt_of_mem hw hm)
    rw [h.lookup_outside (by omega)]
    exact hb c hm
  · have ha : (BitVec.ofNat 16 c.1).toNat = c.1 := Nat.mod_eq_of_lt (by omega : c.1 < 65536)
    rw [h.lookup_inside (by omega) (by omega)]
    exact Subsystem.region_stores (fun he => by rw [he] at hhi; simp at hhi; omega) base

/-- Attaching keeps the invariant, whether it joins the subsystem or refuses it. -/
theorem attach_sound (sub : Subsystem) (base : Nat) {s : State} (hs : SoundState s) :
    SoundState (attach sub base s).state := by
  rcases attach_cases sub base s with h | ⟨e, he⟩
  · obtain ⟨hw, hok, hb⟩ := hs
    rw [attach_of_attachable h]
    exact ⟨h.wf hw, h.fabricOk hok, h.storeBacked hw hb⟩
  · rw [he]; exact hs

/-! ## The host's other operations are made of accesses -/

theorem setField_fabricStep (f : Field) (v : Nat) (s : State) : FabricStep s (setField f v s).state := by
  cases f <;> dsimp only [setField] <;> split <;> exact .of_same rfl rfl

theorem memoryWrite_fabricStep (a : Addr) (bs : List Byte) (s : State) : FabricStep s (memoryWrite a bs s).state := by
  unfold memoryWrite
  split
  · exact .refl s
  · exact writeAll_fabricStep a bs s

theorem writeSlice_fabricStep (a : Addr) (bs : List Byte) (s : State) : FabricStep s (writeSlice a bs s).state := by
  cases h : writeSlice a bs s with
  | done t =>
    have hw := writeAll_fabricStep a bs s
    rwa [(writeSlice_eq_done.1 h).2] at hw
  | failed e t =>
    rw [(writeSlice_eq_failed.1 h).1]
    exact scrambleSlice_fabricStep ..

theorem runInit_fabricStep (s : State) : FabricStep s (runInit s).state := by
  have hr := (readWord_same initVector s).fabricStep
  unfold runInit
  generalize readWord initVector s = q at hr
  obtain ⟨r, t⟩ := q
  cases r with
  | error f => exact hr
  | ok target => exact hr.trans (.of_same rfl rfl)

/-- The empty fabric is sound, with nothing stored. -/
theorem emptyFabric_sound (s : State) : SoundState (emptyFabric s) := ⟨rfl, rfl, rfl⟩

/-- So is the fabric after its reset, one RAM with nothing stored. -/
theorem fabricReset_sound (s : State) : SoundState (fabricReset s) := invariantAtReset

/-- Settles O52: reset, the empty fabric and the fabric's reset are sound outright, an attach joins only a range apart
from all others, and everything else is made of accesses. -/
theorem reachableStatesSatisfyInvariant : Obligations.ReachableStatesSatisfyInvariant := by
  intro s h
  induction h with
  | reset => exact invariantAtReset
  | empty _ _ => exact emptyFabric_sound _
  | step _ hs ih => exact stepKeepsInvariant _ _ ih hs
  | flush _ ih => exact (FabricStep.of_same rfl rfl).sound ih
  | memoryFlush _ _ => exact fabricReset_sound _
  | set f v _ ih => exact (setField_fabricStep f v _).sound ih
  | attach sub base _ ih => exact attach_sound sub base ih
  | writeVerb a bytes _ ih => exact (memoryWrite_fabricStep a bytes _).sound ih
  | fillVerb a b value _ ih => exact (writeAll_fabricStep ..).sound ih
  | writeSlice a bytes _ ih => exact (writeSlice_fabricStep a bytes _).sound ih
  | read a _ ih => exact (fabricRead_same a _).fabricStep.sound ih
  | readSlice a n _ ih => exact (readSlice_same a n _).fabricStep.sound ih
  | runInit _ ih => exact (runInit_fabricStep _).sound ih
  | runAt a _ ih => exact (FabricStep.of_same rfl rfl).sound ih

/-! ## Attach as the host sees it -/

/-- Two ranges that are not empty and have no address in common do not overlap. -/
theorem overlaps_eq_false_of_disjoint {base len : Nat} {r : Region} (hr : r.fits = true) (hpos : 1 ≤ len) (hle : base + len ≤ 65536)
    (h : ∀ a : Addr, r.holds a = true → a.toNat < base ∨ base + len ≤ a.toNat) : overlaps base len r = false := by
  simp only [Region.fits, Bool.and_eq_true, decide_eq_true_eq] at hr
  refine Bool.eq_false_iff.2 fun ho => ?_
  simp only [overlaps, Bool.and_eq_true, decide_eq_true_eq] at ho
  have hmax : (BitVec.ofNat 16 (max base r.base.toNat)).toNat = max base r.base.toNat :=
    Nat.mod_eq_of_lt (by omega : max base r.base.toNat < 65536)
  have := h (BitVec.ofNat 16 (max base r.base.toNat)) (by
    simp only [Region.holds, hmax, Bool.and_eq_true, decide_eq_true_eq]; omega)
  omega

/-- An address in both ranges makes them overlap. -/
theorem overlaps_of_holds {base len : Nat} {r : Region} {a : Addr} (ha : r.holds a = true) (hlo : base ≤ a.toNat)
    (hhi : a.toNat < base + len) : overlaps base len r = true := by
  simp only [Region.holds, overlaps, Bool.and_eq_true, decide_eq_true_eq] at ha ⊢
  omega

theorem fits_of_fabricOk {rs : List Region} (hok : fabricOk rs = true) {r : Region} (hr : r ∈ rs) : r.fits = true := by
  induction rs with
  | nil => cases hr
  | cons q rest ih =>
    obtain ⟨hq, -, hrest⟩ := fabricOk_cons.1 hok
    rcases List.mem_cons.1 hr with rfl | hr
    · exact hq
    · exact ih hrest hr

/-- Attaching changes no byte outside the new range. -/
theorem Attachable.peek_outside {sub : Subsystem} {base : Nat} {s : State} (h : Attachable sub base s) {a : Addr}
    (ha : a.toNat < base ∨ base + sub.len ≤ a.toNat) : peek (attached sub base s) a = peek s a := by
  have hmem : Memory.read (attached sub base s).mem a.toNat = Memory.read s.mem a.toNat := by
    have := sub.contents_le
    rw [attached, setRegions_mem, setMem_mem, writeBytes_read (by omega), Memory.read_clear, if_neg (by omega)]
  rw [peek, h.lookup_outside ha, hmem]
  rfl

/-- A new ROM shows its contents. -/
theorem Attachable.peek_rom {contents : List Byte} {base k : Nat} {b : Byte} {s : State}
    (h : Attachable (.rom contents) base s) (hw : Memory.wf s.mem = true) (hk : contents[k]? = some b) {a : Addr}
    (ha : a.toNat = base + k) : peek (attached (.rom contents) base s) a = some b := by
  have hlt : k < contents.length := (List.getElem?_eq_some_iff.1 hk).1
  have hb : Memory.read (attached (.rom contents) base s).mem a.toNat = b := by
    rw [ha]
    exact writeBytes_read_at h.le (Memory.clear_wf hw) hk
  rw [peek, h.lookup_inside (by omega) (by rw [ha]; exact Nat.add_lt_add_left hlt base), hb]
  rfl

/-- Settles O7. -/
theorem attachJoinsOrRefuses : Obligations.AttachJoinsOrRefuses := by
  refine ⟨fun sub base s hpre => if_pos hpre, fun contents base k b s t hw ht hk => ?_,
    fun sub base s hok hpos hle => ⟨?_, fun hno => ?_⟩⟩
  · obtain ⟨h, rfl⟩ := attach_done ht
    have hlt : k < contents.length := (List.getElem?_eq_some_iff.1 hk).1
    have hlen : base + contents.length ≤ 65536 := h.le
    have ha : (BitVec.ofNat 16 (base + k)).toNat = base + k := Nat.mod_eq_of_lt (by omega : base + k < 65536)
    refine ⟨?_, memRead_of_peek (h.peek_rom hw hk ha)⟩
    rw [IsRom, h.lookup_inside (by omega) (by rw [ha]; exact Nat.add_lt_add_left hlt base)]
    rfl
  · rintro ⟨r, hr, a, ha, hlo, hhi⟩
    have hany : s.regions.any (overlaps base sub.len) = true := List.any_eq_true.2 ⟨r, hr, overlaps_of_holds ha hlo hhi⟩
    rw [attach, if_neg (by omega), if_pos hany]
  · have h : Attachable sub base s :=
      ⟨hpos, hle, fun r hr => overlaps_eq_false_of_disjoint (fits_of_fabricOk hok hr) hpos hle (hno r hr)⟩
    exact ⟨_, attach_of_attachable h, h.fabricOk hok, rfl, fun a ha => h.peek_outside ha⟩

end Sys2Proof.Machine

/-! # Proofs: encoding and decoding (30_encoding.md) -/

namespace Sys2Proof

/-! ## Decoding what the encoder writes -/

/-- An instruction's own opcode and operand bytes make it again, whatever bytes follow them. -/
theorem decodeOp_encode (i : Instr) (rest : List Byte) :
    decodeOp i.opcode ((i.mode.bytes ++ rest).getD 0 0) ((i.mode.bytes ++ rest).getD 1 0) = i := by
  cases i <;> (conv => lhs; arg 1; simp only [Instr.opcode, Instr.row]) <;> rfl

/-- The operand bytes are as many as the length leaves beside the opcode. -/
theorem bytes_length_eq (i : Instr) : i.mode.bytes.length = opcodeLength i.opcode - 1 := by
  rw [opcodeLength_opcode, Instr.length, ← Mode.bytes_length, Nat.add_sub_cancel]

/-- Settles O9: the opcode decides the length, the length takes the operand bytes, and they make the instruction again. -/
theorem decodeOfEncode : Obligations.DecodeOfEncode := by
  intro i rest
  have hlen := bytes_length_eq i
  have henough : ¬(i.mode.bytes ++ rest).length + 1 < opcodeLength i.opcode := by
    rw [List.length_append]; omega
  rw [encode, List.cons_append, decode, if_neg henough, decodeOp_encode, ← hlen, List.drop_left]

/-- Two instructions that the encoder writes alike are one. -/
theorem encode_injective {i j : Instr} (h : encode i = encode j) : i = j := by
  have hd := decodeOfEncode i []
  rw [h, decodeOfEncode j []] at hd
  cases hd
  rfl

/-! ## Encoding what decodes -/

theorem opcode_decodeOp (op b1 b2 : Byte) : (decodeOp op b1 b2).opcode = op := by
  have h := (decodeOp_opcode (decodeOp op 0 0) b1 b2).1
  rwa [opcode_decodeOp_zero] at h

/-- The encoder writes the opcode and the operand bytes that the opcode's format has. -/
theorem encode_decodeOp (op b1 b2 : Byte) : encode (decodeOp op b1 b2) = op :: [b1, b2].take (opcodeLength op - 1) := by
  obtain ⟨hop, -, -, -, hbytes, -⟩ := decodeOp_opcode (decodeOp op 0 0) b1 b2
  rw [opcode_decodeOp_zero] at hop hbytes
  rw [encode, hop, hbytes, opcodeLength]

/-- The bytes that a format takes from a list long enough, by their indices. -/
theorem take_getD {tl : List Byte} {n : Nat} (hn : n ≤ 2) (hl : n ≤ tl.length) :
    [tl.getD 0 0, tl.getD 1 0].take n = tl.take n := by
  match n, tl, hn, hl with
  | 0, _, _, _ => rfl
  | 1, _ :: _, _, _ => rfl
  | 2, _ :: _ :: _, _, _ => rfl

/-- A list that decodes starts with an opcode whose format it fills. -/
theorem decode_eq_ok {bytes rest : List Byte} {i : Instr} (h : decode bytes = .ok (i, rest)) :
    ∃ op tl, bytes = op :: tl ∧ opcodeLength op ≤ tl.length + 1 ∧ i = decodeOp op (tl.getD 0 0) (tl.getD 1 0) ∧
      rest = tl.drop (opcodeLength op - 1) := by
  cases bytes with
  | nil => cases h
  | cons op tl =>
    rw [decode] at h
    split at h
    · cases h
    · cases h
      exact ⟨op, tl, rfl, by omega, rfl, rfl⟩

theorem opcodeLength_bounds (op : Byte) : 1 ≤ opcodeLength op ∧ opcodeLength op ≤ 3 := Instr.length_bounds _

/-- Settles O10: the opcode and the bytes taken after it are what the encoder writes, the bytes dropped are the rest. -/
theorem encodeOfDecode : Obligations.EncodeOfDecode := by
  intro bytes rest i h
  obtain ⟨op, tl, rfl, hlen, rfl, rfl⟩ := decode_eq_ok h
  have hb := opcodeLength_bounds op
  rw [encode_decodeOp, take_getD (by omega) (by omega), List.cons_append, List.take_append_drop]

/-- Settles O8: each word decodes by evaluation. -/
theorem opcodeBytesDecode : Obligations.OpcodeBytesDecode :=
  ⟨rfl, rfl, rfl, rfl, rfl, rfl, rfl, rfl, rfl, rfl⟩

/-! ## The opcode and the pair of mnemonic and mode (R68) -/

/-- The first opcode of the map whose row has a mnemonic and a mode tag. -/
def opcodeOf (mn : Mnemonic) (tag : ModeTag) : Byte :=
  BitVec.ofNat 8 ((List.range 256).findIdx fun n =>
    decide ((decodeOp (BitVec.ofNat 8 n) 0 0).mnemonic = mn) && decide ((decodeOp (BitVec.ofNat 8 n) 0 0).mode.tag = tag))

/-- No earlier row has an opcode's mnemonic and mode tag. -/
theorem opcodeOf_row : ∀ op : Byte, (decodeOp op 0 0).assigned = true →
    opcodeOf (decodeOp op 0 0).mnemonic (decodeOp op 0 0).mode.tag = op := by decide +kernel

theorem opcodeOf_eq_opcode {i : Instr} (h : WellFormed i) : opcodeOf i.mnemonic i.mode.tag = i.opcode := by
  obtain ⟨-, hmn, htag, -, -, has⟩ := decodeOp_opcode i 0 0
  have hrow := opcodeOf_row i.opcode (has.trans h)
  rwa [hmn, htag] at hrow

/-- The opcode byte alone decides the rest of the row. -/
theorem decodeOp_row_zero (op b1 b2 : Byte) :
    (decodeOp op b1 b2).mnemonic = (decodeOp op 0 0).mnemonic ∧
      (decodeOp op b1 b2).mode.tag = (decodeOp op 0 0).mode.tag ∧
      (decodeOp op b1 b2).baseCycles = (decodeOp op 0 0).baseCycles ∧
      (decodeOp op b1 b2).assigned = (decodeOp op 0 0).assigned := by
  have h := decodeOp_opcode (decodeOp op 0 0) b1 b2
  rw [opcode_decodeOp_zero] at h
  obtain ⟨-, hmn, htag, hcyc, -, has⟩ := h
  exact ⟨hmn, htag, hcyc, has⟩

/-- The assigned rows counted (R66). -/
theorem assignedOpcodes_length :
    ((List.range 256).filter fun n => (decodeOp (BitVec.ofNat 8 n) 0 0).assigned).length = 211 := by decide +kernel

/-- Settles O11: the pair of mnemonic and tag finds the opcode again, and what decodes has the row
of its opcode. -/
theorem opcodeAndMnemonicModeDetermineEachOther : Obligations.OpcodeAndMnemonicModeDetermineEachOther := by
  refine ⟨fun i j hi hj hmn htag => ?_, fun op b1 b2 => ?_, assignedOpcodes_length⟩
  · rw [← opcodeOf_eq_opcode hi, ← opcodeOf_eq_opcode hj, hmn, htag]
  · obtain ⟨hmn, htag, hcyc, -⟩ := decodeOp_row_zero op b1 b2
    exact ⟨opcode_decodeOp op b1 b2, hmn, htag, hcyc, Instr.length_bounds _⟩

end Sys2Proof

namespace Sys2Proof

/-- A format's instruction does not depend on the bytes it does not have (R60). -/
theorem decodeOp_congr {op b1 b2 c1 c2 : Byte} (h1 : 2 ≤ opcodeLength op → b1 = c1) (h2 : 3 ≤ opcodeLength op → b2 = c2) :
    decodeOp op b1 b2 = decodeOp op c1 c2 := by
  apply encode_injective
  rw [encode_decodeOp, encode_decodeOp]
  obtain ⟨hlo, hhi⟩ := opcodeLength_bounds op
  obtain hl | hl | hl : opcodeLength op = 1 ∨ opcodeLength op = 2 ∨ opcodeLength op = 3 := by omega
  · rw [hl]; rfl
  · rw [hl, h1 (by omega)]; rfl
  · rw [h1 (by omega), h2 (by omega)]

/-- The row of an unassigned opcode has no operand bytes. -/
theorem opcodeLength_of_not_assigned {op : Byte} (h : (decodeOp op 0 0).assigned = false) : opcodeLength op = 1 := by
  rw [Instr.assigned_eq, decide_eq_false_iff_not, Classical.not_not] at h
  rw [opcodeLength, Instr.length, h]
  rfl

end Sys2Proof

namespace Sys2Proof.Machine

/-! ## The rows without an instruction -/

/-- The 45 rows that are no instruction have the shape that stops (R70, R71). -/
theorem shape_of_not_assigned {i : Instr} (h : i.assigned = false) : shape i = .unknown i.opcode := by
  cases i <;> cases h <;> rfl

/-- Settles O45. -/
theorem unassignedOpcodesStop : Obligations.UnassignedOpcodesStop := by
  intro i s h
  rw [exec_eq_shape, shape_of_not_assigned (Bool.eq_false_iff.2 h), Shape.run]

/-! ## The fetch and the step -/

/-- No opcode has a slot of its own (decision D2). -/
theorem fetchLength_eq (op : Byte) : fetchLength op = opcodeLength op := rfl

theorem fetchOperand_present {p : Prop} [Decidable p] (h : p) (a : Addr) (s : State) :
    fetchOperand (decide p) a s = memRead a s :=
  if_pos (decide_eq_true h)

theorem fetchOperand_of_peek {present : Bool} {a : Addr} {s : State} {b : Byte}
    (h : present = true → peek s a = some b) : fetchOperand present a s = .ok (if present then b else 0, s) := by
  cases present with
  | false => rfl
  | true => exact memRead_of_peek (h rfl)

/-- A fetch of bytes in RAM or ROM gives the instruction they make and changes nothing. -/
theorem fetch_of_peek {s : State} {op b1 b2 : Byte} (h0 : peek s s.cp = some op)
    (h1 : 2 ≤ opcodeLength op → peek s (offsetAddr s.cp 1) = some b1)
    (h2 : 3 ≤ opcodeLength op → peek s (offsetAddr s.cp 2) = some b2) : fetch s = .ok (decodeOp op b1 b2, s) := by
  rw [fetch, memRead_of_peek h0, withAnswer_ok, fetchLength_eq,
    fetchOperand_of_peek fun hp => h1 (of_decide_eq_true hp), withAnswer_ok,
    fetchOperand_of_peek fun hp => h2 (of_decide_eq_true hp), withAnswer_ok,
    decodeOp_congr (fun hl => if_pos (decide_eq_true hl)) fun hl => if_pos (decide_eq_true hl)]

theorem step_of_fetch {s s1 : State} {i : Instr} (h : fetch s = .ok (i, s1)) : step s = exec i s1 := by
  rw [step, h]

theorem step_of_fetch_error {s : State} {f : Fault} (h : fetch s = .error f) : step s = .fault f := by
  rw [step, h]

/-- Settles O12: the bytes that decode are the ones the fetch reads, so it gives the instruction decoded. -/
theorem stepRunsDecodedInstruction : Obligations.StepRunsDecodedInstruction := by
  refine ⟨fun s bytes rest i hd hpeek => ?_, fun s s1 i h => ⟨step_of_fetch h, (fetch_ok h).1⟩⟩
  obtain ⟨op, tl, rfl, -, rfl, -⟩ := decode_eq_ok hd
  have hlen : (decodeOp op (tl.getD 0 0) (tl.getD 1 0)).length = opcodeLength op := by
    rw [← opcodeLength_opcode, opcode_decodeOp]
  have hbyte : ∀ k, k < opcodeLength op → peek s (offsetAddr s.cp k) = some ((op :: tl).getD k 0) := fun k hk => by
    obtain ⟨b, hb, hp⟩ := hpeek k (hlen ▸ hk)
    rw [List.getD_eq_getElem?_getD, hb]
    exact hp
  have h0 : peek s s.cp = some op := by
    have h := hbyte 0 (opcodeLength_bounds op).1
    rwa [offsetAddr, BitVec.add_zero] at h
  exact step_of_fetch (fetch_of_peek h0 (hbyte 1) (hbyte 2))

/-- Settles O13: an error of a read ends the chain of the fetch's reads, and an unassigned opcode's row has no operand byte
to read before it stops. -/
theorem fetchErrorsComeInAccessOrder : Obligations.FetchErrorsComeInAccessOrder := by
  refine ⟨fun a s => memRead_unmapped, fun s => ⟨fun f h => ?_, fun op s1 h => ⟨fun hno => ?_, fun f hl h1 => ?_,
    fun b1 s2 f hl h1 h2 => ?_⟩⟩⟩
  · exact step_of_fetch_error (by rw [fetch, h, withAnswer_error])
  · have hl := opcodeLength_of_not_assigned hno
    have hf : fetch s = .ok (decodeOp op 0 0, s1) := by
      rw [fetch, h, withAnswer_ok, fetchLength_eq, hl]; rfl
    rw [step_of_fetch hf, unassignedOpcodesStop _ _ (Bool.eq_false_iff.1 hno), opcode_decodeOp, (memRead_ok h).cp]
  · have h1 : memRead (offsetAddr s.cp 1) s1 = .error f := h1
    refine step_of_fetch_error ?_
    rw [fetch, h, withAnswer_ok, fetchLength_eq, fetchOperand_present hl, h1, withAnswer_error]
  · have h1 : memRead (offsetAddr s.cp 1) s1 = .ok (b1, s2) := h1
    have h2 : memRead (offsetAddr s.cp 2) s2 = .error f := h2
    refine step_of_fetch_error ?_
    rw [fetch, h, withAnswer_ok, fetchLength_eq, fetchOperand_present (Nat.le_of_succ_le hl), h1, withAnswer_ok,
      fetchOperand_present hl, h2, withAnswer_error]

end Sys2Proof.Machine

/-! # Proofs: operands (40_addressing_modes.md) -/

namespace Sys2Proof.Machine

/-! ## Effective addresses as numbers -/

/-- An indexed address and its page-crossing flag, as numbers (R98, R99, R103). -/
theorem indexed_eq (lo hi i : Byte) :
    (⟨word lo hi + zext16 i, crosses (word lo hi) (word lo hi + zext16 i)⟩ : Resolved) =
      ⟨BitVec.ofNat 16 ((lo.toNat + 256 * hi.toNat + i.toNat) % 65536),
        decide ((lo.toNat + 256 * hi.toNat) / 256 ≠ (lo.toNat + 256 * hi.toNat + i.toNat) % 65536 / 256)⟩ := by
  rw [crosses_eq, word_toNat, word_add, BitVec.toNat_ofNat, Nat.mod_mod]

/-- Settles O14. -/
theorem modesWithoutPointer : Obligations.ModesWithoutPointer := by
  intro b1 b2 s
  refine ⟨?_, ?_, ?_, ?_, ?_, ?_⟩
  · rw [resolve, zext16_eq]
  · rw [resolve, zext16_add]
  · rw [resolve, zext16_add]
  · rw [resolve, word_eq]
  · rw [resolve, indexed_eq]
  · rw [resolve, indexed_eq]

/-- A zero-page pointer, read where the statement's numbers say: both sums wrap in page 0 (R101, R102). -/
theorem memRead16zp_of_peek_ofNat {z lo hi : Byte} {n : Nat} {s : State} (hz : z.toNat = n % 256)
    (h1 : peek s (BitVec.ofNat 16 (n % 256)) = some lo) (h2 : peek s (BitVec.ofNat 16 ((n + 1) % 256)) = some hi) :
    memRead16zp z s = .ok (word lo hi, s) :=
  memRead16zp_of_peek (by rwa [zext16_eq, hz]) (by rwa [zext16_add_one, hz, Nat.mod_add_mod])

/-- A 16-bit address counts modulo 65536. -/
theorem ofNat_mod_addr (n : Nat) : BitVec.ofNat 16 (n % 65536) = BitVec.ofNat 16 n :=
  BitVec.eq_of_toNat_eq (by rw [BitVec.toNat_ofNat, BitVec.toNat_ofNat, Nat.mod_mod])

/-- An absolute pointer, read where the statement's numbers say. -/
theorem memRead16_of_peek_ofNat {n : Nat} {lo hi : Byte} {s : State} (h1 : peek s (BitVec.ofNat 16 (n % 65536)) = some lo)
    (h2 : peek s (BitVec.ofNat 16 ((n + 1) % 65536)) = some hi) :
    memRead16 (BitVec.ofNat 16 n) s = .ok (word lo hi, s) := by
  rw [ofNat_mod_addr] at h1 h2
  rw [BitVec.ofNat_add] at h2
  exact memRead16_of_peek h1 h2

/-- Settles O16: the pointer is read where the numbers say, and is the word of its two bytes. -/
theorem modesWithPointer : Obligations.ModesWithPointer := by
  intro b1 b2 lo hi s pointer indexed zero wide
  refine ⟨fun h1 h2 => ?_, fun h1 h2 => ?_, fun h1 h2 => ?_, fun h1 h2 => ?_⟩
  · rw [resolve, memRead16zp_of_peek_ofNat (BitVec.toNat_add b1 s.x) h1 h2, withAnswer_ok, word_eq]
  · have hp : memRead16zp b1 s = .ok (word lo hi, s) :=
      memRead16zp_of_peek_ofNat (Nat.mod_eq_of_lt b1.isLt).symm h1 h2
    constructor
    · rw [resolve, hp, withAnswer_ok, word_eq]
    · rw [resolve, hp, withAnswer_ok, indexed_eq]
  · rw [resolve, word_eq, memRead16_of_peek_ofNat h1 h2, withAnswer_ok, word_eq]
  · rw [resolve, word_add, ofNat_mod_addr, memRead16_of_peek_ofNat h1 h2, withAnswer_ok, word_eq]

/-! ## Operand reads -/

/-- A region with bytes of its own has no state of a device. -/
theorem Region.withPrivateState_of_stores {r : Region} (h : r.stores = true) (n : Nat) : r.withPrivateState n = r := by
  obtain ⟨kind, base, len⟩ := r
  cases kind with
  | ram => rfl
  | rom => rfl
  | peripheral dev st => cases h

theorem fabricMap_of_noPeripheral {s : State} (hn : NoPeripheral s) : fabricMap s = s.regions := by
  rw [fabricMap, List.map_congr_left fun r hr => Region.withPrivateState_of_stores (hn r hr) 0, List.map_id']

/-- Where no subsystem is a peripheral, states that differ in peripherals alone are one. -/
theorem SameButPeripherals.eq_of_noPeripheral {s t : State} (h : SameButPeripherals s t) (hn : NoPeripheral s) : t = s := by
  have hr : t.regions = s.regions := by
    rw [← fabricMap_of_noPeripheral ((noPeripheral_congr h.2).2 hn), ← fabricMap_of_noPeripheral hn, h.2]
  rw [h.1, hr]

theorem readSource_mem {m : AddrMode} {r : Resolved} {s s1 : State} (h : resolve m s = .ok (r, s1)) :
    readSource (.mem m) s = withAnswer (memRead r.ea s1) fun v s2 => .ok (⟨v, r.crossed⟩, s2) := by
  rw [readSource, h, withAnswer_ok]

/-- Settles O17: an operand is read by fabric reads alone, which change the state of a peripheral's device at most and fail
where nothing is mapped or in a peripheral. -/
theorem operandReadsChangeNoRegisterAndNoByte : Obligations.OperandReadsChangeNoRegisterAndNoByte := by
  refine ⟨fun v s => rfl, fun m r s s1 h => ⟨fun v s2 h2 => ?_, fun f h2 => ?_⟩, fun m s f h => ?_,
    fun m r s s1 h => ⟨resolve_ok h, (resolve_ok h).eq_of_noPeripheral⟩,
    fun src o s s1 h => ⟨readSource_ok h, (readSource_ok h).peek, (readSource_ok h).eq_of_noPeripheral⟩,
    fun src m s hc => ⟨fun hn => ⟨?_, ?_⟩, fun f h => ?_⟩⟩
  · rw [readSource_mem h, h2, withAnswer_ok]
  · rw [readSource_mem h, h2, withAnswer_error]
  · rw [readSource, h, withAnswer_error]
  · obtain ⟨o, t, h⟩ := answers_of_readError hc hn fun _ => readSource_error (src := src)
    exact ⟨o, by rw [h, (readSource_ok h).eq_of_noPeripheral hn]⟩
  · obtain ⟨r, t, h⟩ := answers_of_readError hc hn fun _ => resolve_error (m := m)
    exact ⟨r, by rw [h, (resolve_ok h).eq_of_noPeripheral hn]⟩
  · exact (h.elim readSource_error resolve_error).of_covered hc

end Sys2Proof.Machine

/-! # Proofs: RAM and peripherals (20_memory.md R33, R36) -/

namespace Sys2Proof.Machine

/-- A RAM address shows the store's byte. -/
theorem peek_ram {s : State} {a : Addr} (h : IsRam s a) : peek s a = some (Memory.read s.mem a.toNat) := by
  rw [peek_eq, (isRam_iff s a).1 h]

/-- A RAM just attached shows zero, what an unlisted address reads as. -/
theorem Attachable.peek_ram {len base : Nat} {s : State} (h : Attachable (.ram len) base s) {a : Addr}
    (hlo : base ≤ a.toNat) (hhi : a.toNat < base + len) : peek (attached (.ram len) base s) a = some 0x00 := by
  have hread : Memory.read (attached (.ram len) base s).mem a.toNat = 0x00 := by
    show Memory.read (Memory.clear s.mem base len) a.toNat = _
    rw [Memory.read_clear, if_pos ⟨hlo, hhi⟩]
    rfl
  rw [peek, h.lookup_inside hlo hhi, hread]
  rfl

/-- The state after an access that moved the peripheral of region `r`, with device `dev`, to its device's state `n`. -/
def movedTo (s : State) (r : Region) (dev n : Nat) : State :=
  { s with regions := s.regions.map fun q => if q = r then { r with kind := .peripheral dev n } else q }

section
variable {s : State} {a : Addr} {r : Region} {dev st : Nat}

/-- In a sound fabric moving the peripheral at an address replaces its one region. -/
theorem setRegions_movePeripheral (hok : fabricOk s.regions = true) (hr : r ∈ s.regions) (ha : r.holds a = true)
    (hk : r.kind = .peripheral dev st) (n : Nat) :
    setRegions (movePeripheral s.regions a n) s = movedTo s r dev n := by
  have hmove : r.withPrivateState n = { r with kind := .peripheral dev n } := by rw [Region.withPrivateState, hk]
  rw [movePeripheral_eq_map hok hr ha, hmove]
  rfl

/-- A read in a peripheral answers what the device gives, and moves it (R36, R38). -/
theorem fabricRead_peripheral (hok : fabricOk s.regions = true) (hr : r ∈ s.regions) (ha : r.holds a = true)
    (hk : r.kind = .peripheral dev st) :
    fabricRead a s = ((Config.periphRead dev st (r.offset a)).1.mapError fun k => .peripheralError k a,
      movedTo s r dev (Config.periphRead dev st (r.offset a)).2) := by
  rw [fabricRead, lookup_eq_some hok hr ha, ← setRegions_movePeripheral hok hr ha hk]
  simp only [hk]

/-- So does a write (R36, R39). -/
theorem fabricWrite_peripheral (hok : fabricOk s.regions = true) (hr : r ∈ s.regions) (ha : r.holds a = true)
    (hk : r.kind = .peripheral dev st) (v : Byte) :
    fabricWrite a v s = ((Config.periphWrite dev st (r.offset a) v).1.map fun k => .peripheralError k a,
      movedTo s r dev (Config.periphWrite dev st (r.offset a) v).2) := by
  rw [fabricWrite, lookup_eq_some hok hr ha, ← setRegions_movePeripheral hok hr ha hk]
  simp only [hk]

end

/-- Settles O3. -/
theorem ramAndPeripheralAccesses : Obligations.RamAndPeripheralAccesses := by
  refine ⟨fun s a h => ⟨_, peek_ram h, memRead_of_peek (peek_ram h)⟩, fun s a v hw h => ?_, fun s t len base a ht hlo hhi => ?_,
    fun s a v r dev st hok hr ha hk => ?_⟩
  · have ht := memWrite_ram h v
    exact ⟨_, ht, memRead_of_peek (memWrite_peek_same hw h ht), rfl, fun b hb => memWrite_peek_other ht hb⟩
  · obtain ⟨h, rfl⟩ := attach_done ht
    exact memRead_of_peek (h.peek_ram hlo hhi)
  · intro offset moved
    have hread : fabricRead a s = ((Config.periphRead dev st offset).1.mapError fun k => .peripheralError k a,
        moved (Config.periphRead dev st offset).2) := fabricRead_peripheral hok hr ha hk
    have hwrite : fabricWrite a v s = ((Config.periphWrite dev st offset v).1.map fun k => .peripheralError k a,
        moved (Config.periphWrite dev st offset v).2) := fabricWrite_peripheral hok hr ha hk v
    constructor
    · rcases hd : Config.periphRead dev st offset with ⟨k | b, n⟩ <;> rw [hd] at hread
      · exact ⟨hread, memRead_eq_error.2 (congrArg Prod.fst hread)⟩
      · exact ⟨hread, memRead_eq_ok.2 hread⟩
    · rcases hd : Config.periphWrite dev st offset v with ⟨_ | k, n⟩ <;> rw [hd] at hwrite
      · exact ⟨hwrite, memWrite_eq_ok.2 hwrite⟩
      · exact ⟨hwrite, memWrite_eq_error.2 (congrArg Prod.fst hwrite)⟩

end Sys2Proof.Machine

/-! # Proofs: instructions with an operand (41 to 46, 48) -/

namespace Sys2Proof.Machine

/-! ## Rows: lengths and cycles -/

/-- What holds of every row of the opcode map holds of every instruction's mnemonic, mode tag and base cycles. -/
theorem row_of_map {P : Mnemonic → ModeTag → Nat → Prop}
    (h : ∀ op : Byte, P (decodeOp op 0 0).mnemonic (decodeOp op 0 0).mode.tag (decodeOp op 0 0).baseCycles) (i : Instr) :
    P i.mnemonic i.mode.tag i.baseCycles := by
  obtain ⟨-, hmn, htag, hcyc, -⟩ := decodeOp_opcode i 0 0
  have hrow := h i.opcode
  rwa [hmn, htag, hcyc] at hrow

theorem mode_of_modeSource {mode : Mode} {src : Source} (h : modeSource mode = some src) :
    (∃ v, mode = .imm v ∧ src = .imm v) ∨ ∃ m, mode = .mem m ∧ src = .mem m := by
  cases mode with
  | imm v => cases h; exact .inl ⟨v, rfl, rfl⟩
  | mem m => cases h; exact .inr ⟨m, rfl, rfl⟩
  | imp | acc | rel | zprel | illegal => cases h

theorem mode_of_modeAddress {mode : Mode} {m : AddrMode} (h : modeAddress mode = some m) : mode = .mem m := by
  cases mode with
  | mem m => cases h; rfl
  | imp | acc | imm | rel | zprel | illegal => cases h

/-- The length of an instruction is its operand's (R61). -/
theorem Source.length_eq {i : Instr} {src : Source} (h : modeSource i.mode = some src) : src.length = i.length := by
  rcases mode_of_modeSource h with ⟨v, hm, rfl⟩ | ⟨m, hm, rfl⟩ <;> rw [Instr.length, hm] <;> rfl

theorem modeLength_eq {i : Instr} {m : AddrMode} (h : modeAddress i.mode = some m) : modeLength m = i.length := by
  rw [Instr.length, mode_of_modeAddress h]; rfl

theorem cyclesOf_pays {i : Instr} {crossed : Bool}
    (h : crossed = true → paysPageCycle Config.pagePenaltySet i = true) :
    cyclesOf i crossed = i.baseCycles + if crossed then 1 else 0 := by
  cases crossed with
  | false => simp
  | true => rw [cyclesOf, h rfl]; rfl

theorem cyclesOf_not_pays {i : Instr} (h : paysPageCycle Config.pagePenaltySet i = false) (crossed : Bool) :
    cyclesOf i crossed = i.baseCycles := by
  rw [cyclesOf, h, Bool.and_false]; rfl

/-- The instructions that read an operand pay for a crossing (R110). -/
theorem cyclesOf_readSource {i : Instr} {src : Source} {o : Operand} {s s1 : State}
    (hm : i.mnemonic ∈ [.lda, .ldx, .ldy, .adc, .sbc, .and, .ora, .eor, .cmp, .cpx, .cpy, .bit, .asl, .lsr, .rol, .ror])
    (hs : modeSource i.mode = some src) (h : readSource src s = .ok (o, s1)) :
    cyclesOf i o.crossed = i.baseCycles + if o.crossed then 1 else 0 := by
  refine cyclesOf_pays fun hc => pays_of_row i hm ?_
  obtain ⟨m, rfl, htag⟩ := readSource_crossed h hc
  rcases mode_of_modeSource hs with ⟨v, -, hv⟩ | ⟨m', hmode, hv⟩
  · cases hv
  · cases hv
    rw [hmode]
    exact htag

/-- So do the shifts in memory. -/
theorem cyclesOf_resolve {i : Instr} {m : AddrMode} {r : Resolved} {s s1 : State}
    (hm : i.mnemonic ∈ [.lda, .ldx, .ldy, .adc, .sbc, .and, .ora, .eor, .cmp, .cpx, .cpy, .bit, .asl, .lsr, .rol, .ror])
    (ha : modeAddress i.mode = some m) (h : resolve m s = .ok (r, s1)) :
    cyclesOf i r.crossed = i.baseCycles + if r.crossed then 1 else 0 := by
  refine cyclesOf_pays fun hc => pays_of_row i hm ?_
  rw [mode_of_modeAddress ha]
  exact resolve_crossed h hc

/-! ## Shapes of the mnemonics -/

theorem shape_of_mnemonic {i : Instr} {mn : Mnemonic} (h : i.mnemonic = mn) : shape i = shapeOf i.opcode i.mode mn := by
  rw [shape, h]

theorem withSource_some {op : Byte} {f : Source → Shape} {mode : Mode} {src : Source} (h : modeSource mode = some src) :
    withSource op f mode = f src := by
  rw [withSource, h]

theorem withAddress_some {op : Byte} {f : AddrMode → Shape} {mode : Mode} {m : AddrMode} (h : modeAddress mode = some m) :
    withAddress op f mode = f m := by
  rw [withAddress, h]

theorem withAccumulator_some {acc : Shape} {f : AddrMode → Shape} {mode : Mode} {m : AddrMode}
    (h : modeAddress mode = some m) : withAccumulator acc f mode = f m := by
  rw [withAccumulator, h]

/-! ## Loads and stores -/

theorem shape_load {i : Instr} {r : Reg} {src : Source}
    (h : i.mnemonic = .lda ∧ r = .a ∨ i.mnemonic = .ldx ∧ r = .x ∨ i.mnemonic = .ldy ∧ r = .y)
    (hs : modeSource i.mode = some src) : shape i = .load r src := by
  rcases h with ⟨h, rfl⟩ | ⟨h, rfl⟩ | ⟨h, rfl⟩ <;> exact (shape_of_mnemonic h).trans (withSource_some hs)

/-- N and Z of a state from a value, as numbers. -/
theorem setNZ_eq (v : Byte) (s : State) :
    setNZ v s = { s with p := { s.p with n := decide (128 ≤ v.toNat), z := decide (v = 0) } } := by
  rw [setNZ, Status.setNZ_eq]; rfl

/-- Settles O18. -/
theorem loadResult : Obligations.LoadResult := by
  intro i r src o s s1 hi hs h
  have hsame := readSource_ok h
  have hmn : i.mnemonic ∈ [.lda, .ldx, .ldy] := by rcases hi with ⟨h, -⟩ | ⟨h, -⟩ | ⟨h, -⟩ <;> simp [h]
  refine ⟨?_, hsame.mem⟩
  rw [exec_eq_shape, shape_load hi hs]
  refine load_next.2 ⟨o, s1, h, ?_⟩
  rw [Source.length_eq hs, cyclesOf_readSource (List.mem_append_left _ hmn) hs h, setNZ_eq, ← hsame.p, ← hsame.cp,
    ← hsame.cycleCount]
  cases r <;> rfl

/-- Every store form writes its register, or zero. -/
theorem shape_store {i : Instr} {m : AddrMode} {v : Byte} {s : State}
    (h : i.mnemonic = .sta ∧ v = s.a ∨ i.mnemonic = .stx ∧ v = s.x ∨ i.mnemonic = .sty ∧ v = s.y ∨
      i.mnemonic = .stz ∧ v = 0x00)
    (ha : modeAddress i.mode = some m) : ∃ f, shape i = .store f m ∧ f s = v := by
  rcases h with ⟨h, rfl⟩ | ⟨h, rfl⟩ | ⟨h, rfl⟩ | ⟨h, rfl⟩ <;>
    exact ⟨_, (shape_of_mnemonic h).trans (withAddress_some ha), rfl⟩

/-- The end of an instruction changes no byte. -/
theorem peek_advance (len n : Nat) (s : State) (a : Addr) : peek (advance len n s) a = peek s a := rfl

/-- Settles O19. -/
theorem storeResult : Obligations.StoreResult := by
  intro i m r v s s1 s2 hi ha h hw
  have hsame := resolve_ok h
  obtain ⟨hframe, -⟩ := memWrite_frame hw
  obtain ⟨f, hshape, hv⟩ := shape_store hi ha
  have hpay : paysPageCycle Config.pagePenaltySet i = false :=
    not_pays_of_row i (.inl (by rcases hi with ⟨h, -⟩ | ⟨h, -⟩ | ⟨h, -⟩ | ⟨h, -⟩ <;> simp [h]))
  refine ⟨advance i.length i.baseCycles s2, ?_, ?_, fun hwf hram => ?_, fun a hne => ?_⟩
  · rw [exec_eq_shape, hshape]
    exact store_next.2 ⟨r, s1, s2, h, hv ▸ hw, by rw [modeLength_eq ha, cyclesOf_not_pays hpay]⟩
  · rw [hframe, hsame.1]
    rfl
  · refine memRead_of_peek ?_
    rw [peek_advance]
    exact memWrite_peek_same (hsame.mem ▸ hwf) ((isRam_congr hsame.2 _).2 hram) hw
  · rw [peek_advance, memWrite_peek_other hw hne, hsame.peek]

/-! ## Arithmetic, logic, compares -/

theorem shape_arith {i : Instr} {src : Source} {v : Byte} {q : ArithResult} {s : State}
    (h : i.mnemonic = .adc ∧ q = (if s.p.d then decimalAdc s.a v s.p.c else addBinary s.a v s.p.c) ∨
      i.mnemonic = .sbc ∧ q = (if s.p.d then decimalSbc s.a v s.p.c else addBinary s.a (v ^^^ 0xFF) s.p.c))
    (hs : modeSource i.mode = some src) : ∃ f, shape i = .arith f src ∧ f s.p s.a v = q := by
  rcases h with ⟨h, rfl⟩ | ⟨h, rfl⟩ <;> exact ⟨_, (shape_of_mnemonic h).trans (withSource_some hs), rfl⟩

/-- Settles O23. -/
theorem addSubtractResult : Obligations.AddSubtractResult := by
  intro i src o q s s1 hi hs h
  have hsame := readSource_ok h
  obtain ⟨f, hshape, hq⟩ := shape_arith hi hs
  have hmn : i.mnemonic ∈ [.lda, .ldx, .ldy, .adc, .sbc] := by rcases hi with ⟨h, -⟩ | ⟨h, -⟩ <;> simp [h]
  refine ⟨?_, hsame.mem⟩
  rw [exec_eq_shape, hshape]
  refine arith_next.2 ⟨o, s1, h, ?_⟩
  rw [Source.length_eq hs, cyclesOf_readSource (List.mem_append_left _ hmn) hs h, hsame.p, hsame.a, hq, ← hsame.cp,
    ← hsame.cycleCount]
  rfl

theorem shape_logic {i : Instr} {src : Source} {v m : Byte} {s : State}
    (h : i.mnemonic = .and ∧ v = s.a &&& m ∨ i.mnemonic = .ora ∧ v = s.a ||| m ∨ i.mnemonic = .eor ∧ v = s.a ^^^ m)
    (hs : modeSource i.mode = some src) : ∃ f, shape i = .logic f src ∧ f s.a m = v := by
  rcases h with ⟨h, rfl⟩ | ⟨h, rfl⟩ | ⟨h, rfl⟩ <;> exact ⟨_, (shape_of_mnemonic h).trans (withSource_some hs), rfl⟩

/-- Settles O26. -/
theorem logicResult : Obligations.LogicResult := by
  intro i src o v s s1 hi hs h
  have hsame := readSource_ok h
  obtain ⟨f, hshape, hv⟩ := shape_logic hi hs
  have hmn : i.mnemonic ∈ [.lda, .ldx, .ldy, .adc, .sbc, .and, .ora, .eor] := by
    rcases hi with ⟨h, -⟩ | ⟨h, -⟩ | ⟨h, -⟩ <;> simp [h]
  refine ⟨?_, hsame.mem⟩
  rw [exec_eq_shape, hshape]
  refine logic_next.2 ⟨o, s1, h, ?_⟩
  rw [Source.length_eq hs, cyclesOf_readSource (List.mem_append_left _ hmn) hs h, hsame.a, hv, setNZ_eq, ← hsame.p,
    ← hsame.cp, ← hsame.cycleCount]
  rfl

/-- BIT's flags: N and V stay as they were in the immediate form (R173). -/
theorem bitTest_status {mode : Mode} {src : Source} (hs : modeSource mode = some src) (a m : Byte) (p : Status) :
    Status.bitTest Config.bitFlags src.isImmediate a m p =
      { p with
        z := decide (a &&& m = 0)
        n := if mode.tag = .imm then p.n else m.getLsbD 7
        v := if mode.tag = .imm then p.v else m.getLsbD 6 } := by
  rcases mode_of_modeSource hs with ⟨v, rfl, rfl⟩ | ⟨am, rfl, rfl⟩
  · rfl
  · cases am <;> rfl

/-- Settles O27. -/
theorem bitTestResult : Obligations.BitTestResult := by
  intro i src o s s1 hi hs h
  have hsame := readSource_ok h
  refine ⟨?_, hsame.mem⟩
  rw [exec_eq_shape, (shape_of_mnemonic hi).trans (withSource_some hs)]
  refine bitTest_next.2 ⟨o, s1, h, ?_⟩
  rw [Source.length_eq hs, cyclesOf_readSource (by simp [hi]) hs h, bitTest_status hs, ← hsame.a, ← hsame.p,
    ← hsame.cp, ← hsame.cycleCount]
  rfl

theorem shape_compare {i : Instr} {src : Source} {v : Byte} {s : State}
    (h : i.mnemonic = .cmp ∧ v = s.a ∨ i.mnemonic = .cpx ∧ v = s.x ∨ i.mnemonic = .cpy ∧ v = s.y)
    (hs : modeSource i.mode = some src) : ∃ r, shape i = .compare r src ∧ s.reg r = v := by
  rcases h with ⟨h, rfl⟩ | ⟨h, rfl⟩ | ⟨h, rfl⟩ <;> exact ⟨_, (shape_of_mnemonic h).trans (withSource_some hs), rfl⟩

/-- A register reads as before in a state that differs in peripherals alone. -/
theorem SameButPeripherals.reg {s t : State} (h : SameButPeripherals s t) (r : Reg) : t.reg r = s.reg r := by
  rw [h.1]; cases r <;> rfl

/-- The difference of two bytes as a number. -/
theorem byte_sub_toNat (v m : Byte) : (v - m).toNat = (v.toNat + 256 - m.toNat) % 256 := by
  have := m.isLt
  rw [BitVec.toNat_sub]
  omega

/-- Settles O32. -/
theorem compareResult : Obligations.CompareResult := by
  intro i reg src o s s1 hi hs h
  have hsame := readSource_ok h
  obtain ⟨r, hshape, hr⟩ := shape_compare hi hs
  have hmn : i.mnemonic ∈ [.lda, .ldx, .ldy, .adc, .sbc, .and, .ora, .eor, .cmp, .cpx, .cpy] := by
    rcases hi with ⟨h, -⟩ | ⟨h, -⟩ | ⟨h, -⟩ <;> simp [h]
  refine ⟨?_, hsame.mem⟩
  rw [exec_eq_shape, hshape]
  refine compareReg_next.2 ⟨o, s1, h, ?_⟩
  rw [Source.length_eq hs, cyclesOf_readSource (List.mem_append_left _ hmn) hs h, hsame.reg, hr, Status.compare_eq,
    byte_sub_toNat, ← hsame.p, ← hsame.cp, ← hsame.cycleCount]
  rfl

/-! ## Read, modify, write -/

/-- The registers play no part in a write: neither does P. -/
theorem memWrite_setStatus {a : Addr} {v : Byte} {s t : State} (h : memWrite a v s = .ok t) (p : Status) :
    memWrite a v (setStatus p s) = .ok (setStatus p t) := by
  have hov := memWrite_overFabric (setStatus p s) a v s
  rw [h] at hov
  rw [(memWrite_frame h).1]
  exact hov

/-- What the three accesses of a read-modify-write instruction leave: every register as it was. -/
theorem readModifyWrite_frame {m : AddrMode} {r : Resolved} {v w : Byte} {s s1 s2 s3 : State}
    (h1 : resolve m s = .ok (r, s1)) (h2 : memRead r.ea s1 = .ok (v, s2)) (h3 : memWrite r.ea w s2 = .ok s3) :
    s3 = { s with regions := s3.regions, mem := s3.mem } := by
  rw [(memWrite_frame h3).1, (memRead_ok h2).1, (resolve_ok h1).1]

/-- The mask of a bit, as a power of two. -/
theorem bitMask_eq : ∀ n : Fin 8, bitMask n = BitVec.ofNat 8 (2 ^ n.val) := by decide

theorem xor_ones (v : Byte) : v ^^^ 0xFF = ~~~v := BitVec.xor_allOnes

theorem shape_testAndWrite {i : Instr} {m : AddrMode} {a v w : Byte}
    (h : i.mnemonic = .tsb ∧ w = v ||| a ∨ i.mnemonic = .trb ∧ w = v &&& ~~~a) (ha : modeAddress i.mode = some m) :
    ∃ f, shape i = .testAndWrite f m ∧ f a v = w := by
  rcases h with ⟨h, rfl⟩ | ⟨h, rfl⟩
  · exact ⟨_, (shape_of_mnemonic h).trans (withAddress_some ha), rfl⟩
  · exact ⟨_, (shape_of_mnemonic h).trans (withAddress_some ha), by rw [xor_ones]⟩

theorem shape_modifyBit {i : Instr} {m : AddrMode} {v w : Byte} {n : Fin 8}
    (h : i.mnemonic = .rmb n ∧ w = v &&& ~~~(BitVec.ofNat 8 (2 ^ n.val)) ∨
      i.mnemonic = .smb n ∧ w = v ||| BitVec.ofNat 8 (2 ^ n.val))
    (ha : modeAddress i.mode = some m) : ∃ f, shape i = .modifyBit f m ∧ f v = w := by
  rcases h with ⟨h, rfl⟩ | ⟨h, rfl⟩
  · exact ⟨_, (shape_of_mnemonic h).trans (withAddress_some ha), by rw [clearBit, xor_ones, bitMask_eq]⟩
  · exact ⟨_, (shape_of_mnemonic h).trans (withAddress_some ha), by rw [raiseBit, bitMask_eq]⟩

/-- Settles O28. -/
theorem memoryBitResult : Obligations.MemoryBitResult := by
  intro i m r v w z s s1 s2 s3 hi ha h1 h2 h3
  have hframe := readModifyWrite_frame h1 h2 h3
  have hsame := (resolve_ok h1).trans (memRead_ok h2)
  have hpay : paysPageCycle Config.pagePenaltySet i = false := by
    refine not_pays_of_row i ?_
    rcases hi with ⟨h, -⟩ | ⟨h, -⟩ | ⟨n, ⟨h, -⟩ | ⟨h, -⟩⟩
    · exact .inl (by simp [h])
    · exact .inl (by simp [h])
    · exact .inr ⟨n, .inl h⟩
    · exact .inr ⟨n, .inr h⟩
  have hcase : ((i.mnemonic = .tsb ∧ w = v ||| s.a ∨ i.mnemonic = .trb ∧ w = v &&& ~~~s.a) ∧
        z = decide (s.a &&& v = 0)) ∨
      ∃ n : Fin 8, (i.mnemonic = .rmb n ∧ w = v &&& ~~~(BitVec.ofNat 8 (2 ^ n.val)) ∨
        i.mnemonic = .smb n ∧ w = v ||| BitVec.ofNat 8 (2 ^ n.val)) ∧ z = s.p.z := by
    rcases hi with ⟨h, hw, hz⟩ | ⟨h, hw, hz⟩ | ⟨n, ⟨h, hw, hz⟩ | ⟨h, hw, hz⟩⟩
    · exact .inl ⟨.inl ⟨h, hw⟩, hz⟩
    · exact .inl ⟨.inr ⟨h, hw⟩, hz⟩
    · exact .inr ⟨n, .inl ⟨h, hw⟩, hz⟩
    · exact .inr ⟨n, .inr ⟨h, hw⟩, hz⟩
  rw [exec_eq_shape]
  rcases hcase with ⟨hw, rfl⟩ | ⟨n, hw, rfl⟩
  · obtain ⟨f, hshape, hf⟩ := shape_testAndWrite hw ha
    rw [hshape]
    refine testAndWrite_next.2 ⟨r, s1, v, s2, _, h1, h2, memWrite_setStatus (hsame.a.symm ▸ hf.symm ▸ h3) _, ?_⟩
    rw [modeLength_eq ha, cyclesOf_not_pays hpay, hframe, hsame.a, hsame.p]
    rfl
  · obtain ⟨f, hshape, hf⟩ := shape_modifyBit hw ha
    rw [hshape]
    refine modifyBit_next.2 ⟨r, s1, v, s2, s3, h1, h2, hf.symm ▸ h3, ?_⟩
    rw [modeLength_eq ha, cyclesOf_not_pays hpay, hframe]
    rfl

theorem shape_shiftMem {i : Instr} {m : AddrMode} {f : Bool → Byte → ShiftResult}
    (h : i.mnemonic = .asl ∧ f = aslByte ∨ i.mnemonic = .lsr ∧ f = lsrByte ∨ i.mnemonic = .rol ∧ f = rolByte ∨
      i.mnemonic = .ror ∧ f = rorByte) (ha : modeAddress i.mode = some m) : shape i = .shiftMem f m := by
  rcases h with ⟨h, rfl⟩ | ⟨h, rfl⟩ | ⟨h, rfl⟩ | ⟨h, rfl⟩ <;>
    exact (shape_of_mnemonic h).trans (withAccumulator_some ha)

theorem shape_stepMem {i : Instr} {m : AddrMode} {v w : Byte}
    (h : i.mnemonic = .inc ∧ w = v + 1 ∨ i.mnemonic = .dec ∧ w = v - 1) (ha : modeAddress i.mode = some m) :
    ∃ f, shape i = .stepMem f m ∧ f v = w := by
  rcases h with ⟨h, rfl⟩ | ⟨h, rfl⟩ <;> exact ⟨_, (shape_of_mnemonic h).trans (withAccumulator_some ha), rfl⟩

/-- Settles O31. -/
theorem memoryShiftAndStepResult : Obligations.MemoryShiftAndStepResult := by
  intro i m r v w c extra s s1 s2 s3 hi ha h1 h2 h3
  have hframe := readModifyWrite_frame h1 h2 h3
  have hsame := (resolve_ok h1).trans (memRead_ok h2)
  rw [exec_eq_shape]
  rcases hi with ⟨f, hi, rfl, rfl, rfl⟩ | hi
  · have hmn : i.mnemonic ∈ [Mnemonic.lda, .ldx, .ldy, .adc, .sbc, .and, .ora, .eor, .cmp, .cpx, .cpy, .bit] ++
        [.asl, .lsr, .rol, .ror] :=
      List.mem_append_right _ (by rcases hi with ⟨h, -⟩ | ⟨h, -⟩ | ⟨h, -⟩ | ⟨h, -⟩ <;> simp [h])
    rw [shape_shiftMem hi ha]
    refine shiftMem_next.2 ⟨r, s1, v, s2, s3, h1, h2, hsame.p.symm ▸ h3, ?_⟩
    rw [modeLength_eq ha, cyclesOf_resolve hmn ha h1, Status.setShift_eq, hsame.p, hframe]
    rfl
  · have hpay : paysPageCycle Config.pagePenaltySet i = false :=
      not_pays_of_row i (.inl (by rcases hi with ⟨h, -⟩ | ⟨h, -⟩ <;> simp [h]))
    have hstep : (i.mnemonic = .inc ∧ w = v + 1 ∨ i.mnemonic = .dec ∧ w = v - 1) ∧ c = s.p.c ∧ extra = 0 := by
      rcases hi with ⟨h, hw, hc, he⟩ | ⟨h, hw, hc, he⟩
      · exact ⟨.inl ⟨h, hw⟩, hc, he⟩
      · exact ⟨.inr ⟨h, hw⟩, hc, he⟩
    obtain ⟨hw, rfl, rfl⟩ := hstep
    obtain ⟨f, hshape, rfl⟩ := shape_stepMem hw ha
    rw [hshape]
    refine stepMem_next.2 ⟨r, s1, v, s2, s3, h1, h2, h3, ?_⟩
    rw [modeLength_eq ha, cyclesOf_not_pays hpay, setNZ_eq, hframe]
    rfl

/-! ## Jumps -/

/-- Settles O35. -/
theorem jumpResult : Obligations.JumpResult := by
  intro i m r s s1 hi ha h
  have hsame := resolve_ok h
  refine ⟨?_, hsame.mem⟩
  rw [exec_eq_shape, (shape_of_mnemonic hi).trans (withAddress_some ha)]
  refine jump_next.2 ⟨r, s1, h, ?_⟩
  rw [← hsame.cycleCount]
  rfl

end Sys2Proof.Machine

/-! # Proofs: transfers, register steps, flags (41, 44, 45, 49) -/

namespace Sys2Proof.Machine

/-- A transfer in full: the register moved to, N and Z from the value, one byte further (R128 to R132). -/
theorem transfer_eq (src dst : Reg) (base : Nat) (s : State) :
    transfer src dst base s = .next (setReg dst (s.reg src)
      { s with
        p := { s.p with n := decide (128 ≤ (s.reg src).toNat), z := decide (s.reg src = 0) }
        cp := s.cp + 1
        cycleCount := s.cycleCount + BitVec.ofNat 64 base }) := by
  rw [transfer, setNZ_eq, setReg_p]
  cases dst <;> rfl

/-- Settles O20. -/
theorem transferResult : Obligations.TransferResult := by
  intro s moved
  exact ⟨transfer_eq .a .x 2 s, transfer_eq .a .y 2 s, transfer_eq .x .a 2 s, transfer_eq .y .a 2 s,
    transfer_eq .sp .x 2 s, rfl⟩

/-- A register step in full (R220 to R225). -/
theorem stepReg_eq (r : Reg) (f : Byte → Byte) (base : Nat) (s : State) :
    stepReg r f base s = .next (setReg r (f (s.reg r))
      { s with
        p := { s.p with n := decide (128 ≤ (f (s.reg r)).toNat), z := decide (f (s.reg r) = 0) }
        cp := s.cp + 1
        cycleCount := s.cycleCount + BitVec.ofNat 64 base }) := by
  rw [stepReg, setNZ_eq, setReg_p]
  cases r <;> rfl

/-- An accumulator shift in full (R204). -/
theorem shiftAcc_eq (f : Bool → Byte → ShiftResult) (base : Nat) (s : State) :
    shiftAcc f base s = .next
      { s with
        a := (f s.p.c s.a).result
        p := { s.p with
          n := decide (128 ≤ (f s.p.c s.a).result.toNat), z := decide ((f s.p.c s.a).result = 0), c := (f s.p.c s.a).carry }
        cp := s.cp + 1
        cycleCount := s.cycleCount + BitVec.ofNat 64 base } := by
  rw [shiftAcc, Status.setShift_eq]
  rfl

/-- Settles O30. -/
theorem registerShiftAndStepResult : Obligations.RegisterShiftAndStepResult := by
  intro s done shifted
  exact ⟨shiftAcc_eq aslByte 2 s, shiftAcc_eq lsrByte 2 s, shiftAcc_eq rolByte 2 s, shiftAcc_eq rorByte 2 s,
    stepReg_eq .a increment 2 s, stepReg_eq .a decrement 2 s, stepReg_eq .x increment 2 s, stepReg_eq .y increment 2 s,
    stepReg_eq .x decrement 2 s, stepReg_eq .y decrement 2 s⟩

/-- Settles O42: each meaning is its record update. -/
theorem flagNopAndStpResult : Obligations.FlagNopAndStpResult := by
  intro s done
  exact ⟨rfl, rfl, rfl, rfl, rfl, rfl, rfl, rfl, rfl⟩

/-- Settles O29: a byte and a carry have 512 values. -/
theorem shiftByteRules : Obligations.ShiftByteRules := by
  intro c m
  revert m
  cases c <;> decide

/-! # Proofs: branches (47_branch.md) -/

/-- An address moved by a constant and a signed offset, as an integer (R106, R107). -/
theorem add_sext16_eq (cp0 : Addr) (len : Nat) (rel8 : Byte) :
    cp0 + BitVec.ofNat 16 len + sext16 rel8 = BitVec.ofInt 16 (cp0.toNat + len + rel8.toInt) := by
  rw [BitVec.ofInt_add, BitVec.ofInt_add, BitVec.ofInt_natCast, BitVec.ofInt_natCast, BitVec.ofNat_toNat, BitVec.setWidth_eq]
  rfl

/-- The extra cycles of a taken branch, by the pages of the instruction and of the target (R111, R262). -/
theorem takenCycles_eq (cp0 : Addr) (len : Nat) (target : Addr) :
    takenCycles (branchCrossed Config.branchPageBase cp0 len target) =
      if cp0.toNat / 256 = target.toNat / 256 then 1 else 2 := by
  rw [show branchCrossed Config.branchPageBase cp0 len target = crosses cp0 target from rfl, crosses_eq, takenCycles, pageCycle]
  by_cases h : cp0.toNat / 256 = target.toNat / 256 <;> simp [h]

/-- The end of a branch in full. -/
theorem branchEnd_eq (taken : Bool) (len : Nat) (target : Addr) (base : Nat) (s : State) :
    branchEnd taken len target base s =
      { s with
        cp := if taken then target else s.cp + BitVec.ofNat 16 len
        cycleCount := s.cycleCount + BitVec.ofNat 64
          (base + if taken then (if s.cp.toNat / 256 = target.toNat / 256 then 1 else 2) else 0) } := by
  cases taken with
  | false => rfl
  | true => rw [branchEnd, if_pos rfl, takenCycles_eq]; rfl

theorem branch_eq (taken : Bool) (rel8 : Byte) (base : Nat) (s : State) :
    branch taken rel8 base s = .next (branchEnd taken 2 (BitVec.ofInt 16 (s.cp.toNat + 2 + rel8.toInt)) base s) := by
  rw [branch, show relTarget s.cp rel8 = _ from add_sext16_eq s.cp 2 rel8]
  rfl

/-- Settles O33: the nine meanings are one branch over nine conditions. -/
theorem relativeBranchResult : Obligations.RelativeBranchResult := by
  intro i rel8 taken s hi target
  have hexec : exec i s = branch taken rel8 2 s := by
    rcases hi with ⟨rfl, rfl⟩ | ⟨rfl, rfl⟩ | ⟨rfl, rfl⟩ | ⟨rfl, rfl⟩ | ⟨rfl, rfl⟩ | ⟨rfl, rfl⟩ | ⟨rfl, rfl⟩ | ⟨rfl, rfl⟩ |
      ⟨rfl, rfl⟩ <;> rfl
  rw [hexec, branch_eq, branchEnd_eq]
  rfl

theorem baseCycles_of_zprel : ∀ i : Instr, i.mode.tag = .zprel → i.baseCycles = 5 :=
  row_of_map (P := fun _ tag cycles => tag = .zprel → cycles = 5) (by decide)

/-- Settles O34. -/
theorem bitBranchResult : Obligations.BitBranchResult := by
  intro i n zp8 rel8 v taken s s1 hi hmode h target
  have hsame := memRead_ok h
  have hshape : ∃ want, shape i = .bitBranch n want zp8 rel8 ∧ (v.getLsbD n == want) = taken := by
    rcases hi with ⟨hmn, rfl⟩ | ⟨hmn, rfl⟩
    · exact ⟨false, by rw [shape_of_mnemonic hmn, hmode]; rfl, by simp⟩
    · exact ⟨true, by rw [shape_of_mnemonic hmn, hmode]; rfl, by simp⟩
  obtain ⟨want, hshape, hw⟩ := hshape
  refine ⟨?_, hsame.mem⟩
  rw [exec_eq_shape, hshape]
  refine bitBranch_next.2 ⟨v, s1, zext16_eq zp8 ▸ h, ?_⟩
  rw [hw, show zprelTarget s1.cp rel8 = _ from add_sext16_eq s1.cp 3 rel8, branchEnd_eq,
    baseCycles_of_zprel i (by rw [hmode]; rfl), hsame.cp, hsame.cycleCount]
  rfl

end Sys2Proof.Machine

/-! # Proofs: subtraction and decimal arithmetic (42_arithmetic.md R152, R153) -/

namespace Sys2Proof.Machine

theorem not_toNat (m : Byte) : (m ^^^ 0xFF).toNat = 255 - m.toNat := by
  rw [xor_ones, BitVec.toNat_not]

theorem not_toInt (m : Byte) : (m ^^^ 0xFF).toInt = -1 - m.toInt := by
  have := m.isLt
  rw [BitVec.toInt_eq_toNat_cond, BitVec.toInt_eq_toNat_cond, not_toNat]
  omega

/-- Settles O22: the adder's rules with the complement for the operand, 255 - M unsigned and -1 - M signed. -/
theorem binarySubtractionRule : Obligations.BinarySubtractionRule := by
  intro a m c r borrow
  have ha := a.isLt
  have hm := m.isLt
  have hc : c.toNat + borrow = 1 := by cases c <;> rfl
  obtain ⟨hres, hcarry, -, hv, hn, hz⟩ := binaryAdderRule a (m ^^^ 0xFF) c
  rw [not_toNat] at hres hcarry
  rw [not_toInt] at hv
  refine ⟨?_, ?_, ?_, hn, hz⟩
  · apply BitVec.eq_of_toNat_eq
    rw [BitVec.toNat_ofInt]
    have : r.result.toNat = (a.toNat + (255 - m.toNat) + c.toNat) % 256 := hres
    omega
  · have : r.c = decide (256 ≤ a.toNat + (255 - m.toNat) + c.toNat) := hcarry
    rw [this, decide_eq_true_iff]
    omega
  · refine hv.trans ?_
    omega

end Sys2Proof.Machine

namespace Sys2Proof.Machine

/-! ## Packed decimal digits (R153) -/

/-- The byte with the decimal digits of `n`, the tens in the high half. -/
def packedDigits (n : Nat) : Byte := BitVec.ofNat 8 (n % 100 / 10 * 16 + n % 10)

/-- Packing drops the hundreds and shifts the tens. -/
theorem packedDigits_eq {n h t o : Nat} (hn : n = 100 * h + 10 * t + o) (ht : t < 10) (ho : o < 10) :
    packedDigits n = BitVec.ofNat 8 (16 * t + o) := by
  have : n % 100 / 10 * 16 + n % 10 = 16 * t + o := by omega
  rw [packedDigits, this]

section
variable {t o : Nat} (ht : t < 10) (ho : o < 10)
include ht ho

theorem packedDigits_toNat : (packedDigits (10 * t + o)).toNat = 16 * t + o := by
  rw [packedDigits_eq (h := 0) (by omega) ht ho, BitVec.toNat_ofNat]
  omega

theorem packedDigits_low : (packedDigits (10 * t + o) &&& 0x0F).toNat = o := by
  rw [BitVec.toNat_and, packedDigits_toNat ht ho]
  refine (Nat.and_two_pow_sub_one_eq_mod _ 4).trans ?_
  omega

theorem packedDigits_high : (packedDigits (10 * t + o) &&& 0xF0).toNat = 16 * t := by
  have hmask : ∀ b : Byte, (b &&& 0xF0).toNat = b.toNat / 16 * 16 := by decide
  rw [hmask, packedDigits_toNat ht ho]
  omega

end

/-- Every number below 100 has two digits. -/
theorem exists_digits {n : Nat} (h : n < 100) : ∃ t o, t < 10 ∧ o < 10 ∧ n = 10 * t + o :=
  ⟨n / 10, n % 10, by omega, by omega, by omega⟩

theorem byte_ofNat_congr {n k : Nat} (h : n % 256 = k % 256) : BitVec.ofNat 8 n = BitVec.ofNat 8 k := by
  apply BitVec.eq_of_toNat_eq
  rw [BitVec.toNat_ofNat, BitVec.toNat_ofNat]
  exact h

theorem byte_ofInt_congr {n : Int} {k : Nat} (h : n % 256 = k % 256) : BitVec.ofInt 8 n = BitVec.ofNat 8 k := by
  apply BitVec.eq_of_toNat_eq
  rw [BitVec.toNat_ofInt, BitVec.toNat_ofNat]
  omega

/-- Two packed numbers add digit by digit: the units' carry goes to the tens, and the tens' is C. -/
theorem decAdcReference_packed {x y : Nat} (c : Bool) (hx : x < 100) (hy : y < 100) :
    (decAdcReference (packedDigits x) (packedDigits y) c).result = packedDigits (x + y + c.toNat) ∧
      (decAdcReference (packedDigits x) (packedDigits y) c).c = decide (100 ≤ x + y + c.toNat) := by
  obtain ⟨xt, xo, hxt, hxo, rfl⟩ := exists_digits hx
  obtain ⟨yt, yo, hyt, hyo, rfl⟩ := exists_digits hy
  have hc := Bool.toNat_le c
  simp only [decAdcReference, packedDigits_low hxt hxo, packedDigits_low hyt hyo, packedDigits_high hxt hxo,
    packedDigits_high hyt hyo, decide_eq_decide]
  by_cases hlow : 10 ≤ xo + yo + c.toNat
  · have hunits : (xo + yo + c.toNat + 6) % 16 = xo + yo + c.toNat - 10 := by omega
    simp only [if_pos hlow, hunits]
    by_cases hhigh : 10 ≤ xt + yt + 1
    · rw [if_pos (by omega), packedDigits_eq (h := 1) (t := xt + yt + 1 - 10) (o := xo + yo + c.toNat - 10) (by omega)
        (by omega) (by omega)]
      exact ⟨byte_ofNat_congr (by omega), by omega⟩
    · rw [if_neg (by omega), packedDigits_eq (h := 0) (t := xt + yt + 1) (o := xo + yo + c.toNat - 10) (by omega)
        (by omega) (by omega)]
      exact ⟨byte_ofNat_congr (by omega), by omega⟩
  · simp only [if_neg hlow]
    by_cases hhigh : 10 ≤ xt + yt
    · rw [if_pos (by omega), packedDigits_eq (h := 1) (t := xt + yt - 10) (o := xo + yo + c.toNat) (by omega)
        (by omega) (by omega)]
      exact ⟨byte_ofNat_congr (by omega), by omega⟩
    · rw [if_neg (by omega), packedDigits_eq (h := 0) (t := xt + yt) (o := xo + yo + c.toNat) (by omega)
        (by omega) (by omega)]
      exact ⟨byte_ofNat_congr (by omega), by omega⟩

/-- They subtract digit by digit: the units borrow from the tens, and C is set when the tens borrow nothing. -/
theorem decSbcReference_packed {x y : Nat} (c : Bool) (hx : x < 100) (hy : y < 100) :
    (decSbcReference (packedDigits x) (packedDigits y) c).result = packedDigits (x + 99 + c.toNat - y) ∧
      (decSbcReference (packedDigits x) (packedDigits y) c).c = decide (100 ≤ x + 99 + c.toNat - y) := by
  obtain ⟨xt, xo, hxt, hxo, rfl⟩ := exists_digits hx
  obtain ⟨yt, yo, hyt, hyo, rfl⟩ := exists_digits hy
  have hc := Bool.toNat_le c
  have hcarry : (decSbcReference (packedDigits (10 * xt + xo)) (packedDigits (10 * yt + yo)) c).c =
      decide (256 ≤ 16 * xt + xo + (255 - (16 * yt + yo)) + c.toNat) := by
    rw [← packedDigits_toNat hxt hxo, ← packedDigits_toNat hyt hyo, ← not_toNat]
    rfl
  rw [hcarry, decide_eq_decide]
  simp only [decSbcReference, packedDigits_low hxt hxo, packedDigits_low hyt hyo, packedDigits_toNat hxt hxo,
    packedDigits_toNat hyt hyo]
  by_cases hlow : xo + c.toNat < yo + 1
  · rw [if_pos (by omega)]
    by_cases hhigh : xt < yt + 1
    · rw [if_pos (by omega), packedDigits_eq (h := 0) (t := xt + 9 - yt) (o := xo + c.toNat + 9 - yo) (by omega) (by omega)
        (by omega)]
      exact ⟨byte_ofInt_congr (by omega), by omega⟩
    · rw [if_neg (by omega), packedDigits_eq (h := 1) (t := xt - 1 - yt) (o := xo + c.toNat + 9 - yo) (by omega) (by omega)
        (by omega)]
      exact ⟨byte_ofInt_congr (by omega), by omega⟩
  · rw [if_neg (by omega)]
    by_cases hhigh : xt < yt
    · rw [if_pos (by omega), packedDigits_eq (h := 0) (t := xt + 10 - yt) (o := xo + c.toNat - 1 - yo) (by omega) (by omega)
        (by omega)]
      exact ⟨byte_ofInt_congr (by omega), by omega⟩
    · rw [if_neg (by omega), packedDigits_eq (h := 1) (t := xt - yt) (o := xo + c.toNat - 1 - yo) (by omega) (by omega)
        (by omega)]
      exact ⟨byte_ofInt_congr (by omega), by omega⟩

/-- Settles O25. -/
theorem decimalReferenceAddsAndSubtractsDigits : Obligations.DecimalReferenceAddsAndSubtractsDigits := by
  intro x y c hx hy packed sum difference
  obtain ⟨hsum, hhundred⟩ := decAdcReference_packed c hx hy
  obtain ⟨hdiff, hborrow⟩ := decSbcReference_packed c hx hy
  exact ⟨hsum, hhundred, hdiff, hborrow⟩

end Sys2Proof.Machine

/-! # Proofs: pushes, pulls, calls and returns (48_jump_subroutine.md, 49_stack_flags_misc.md) -/

namespace Sys2Proof.Machine

/-! ## Stack addresses as numbers -/

/-- The stack byte `k` below SP, as a number (R300). -/
theorem stackAddr_sub_eq (sp : Byte) {k : Nat} (hk : k ≤ 256) :
    stackAddr (sp - BitVec.ofNat 8 k) = BitVec.ofNat 16 (256 + (sp.toNat + 256 - k) % 256) := by
  have : (sp - BitVec.ofNat 8 k).toNat = (sp.toNat + 256 - k) % 256 := by
    rw [BitVec.toNat_sub, BitVec.toNat_ofNat]
    omega
  rw [stackAddr_eq, this]

/-- The stack byte `k` above SP, as a number. -/
theorem stackAddr_add_eq (sp : Byte) (k : Nat) :
    stackAddr (sp + BitVec.ofNat 8 k) = BitVec.ofNat 16 (256 + (sp.toNat + k) % 256) := by
  rw [stackAddr_eq, BitVec.toNat_add, BitVec.toNat_ofNat, Nat.add_mod_mod]

/-! ## One byte -/

/-- Settles O40: one push, whose write leaves the registers. -/
theorem pushResult : Obligations.PushResult := by
  intro i v s s1 hi hw
  have hexec : exec i s = pushByte v 3 s := by
    rcases hi with ⟨rfl, rfl⟩ | ⟨rfl, rfl⟩ | ⟨rfl, rfl⟩ | ⟨rfl, rfl⟩ <;> rfl
  rw [← stackAddr_eq] at hw
  rw [hexec]
  refine pushByte_next.2 ⟨_, push_of_memWrite hw, ?_⟩
  rw [(memWrite_frame hw).1]
  rfl

/-- Settles O41: one pull, whose read leaves the registers. -/
theorem pullResult : Obligations.PullResult := by
  intro v s s1 hr done nz
  rw [← stackAddr_add_one_eq] at hr
  have hp : pull s = .ok (v, s1) := hr
  have hs1 : s1 = { s with sp := s.sp + 1, regions := s1.regions } := (pull_ok hp).1
  have hreg : ∀ r, pullReg r 4 s = .next (setReg r v { done with p := nz }) := fun r => by
    refine pullReg_next.2 ⟨v, s1, hp, ?_⟩
    rw [setNZ_eq, setReg_p, hs1]
    cases r <;> rfl
  refine ⟨hreg .a, hreg .x, hreg .y, pullStatus_next.2 ⟨v, s1, hp, ?_⟩⟩
  rw [hs1]
  rfl

/-! ## Two bytes -/

/-- A push to RAM is read back. -/
theorem push_peek_same {v : Byte} {s t : State} (hwf : Memory.wf s.mem = true) (hr : IsRam s (stackAddr s.sp))
    (h : push v s = .ok t) : peek t (stackAddr s.sp) = some v := by
  obtain ⟨s1, hw, rfl⟩ := push_ok h
  have hs1 : peek s1 (stackAddr s.sp) = some v := memWrite_peek_same hwf hr hw
  exact hs1

/-- A push to RAM answers and moves no peripheral. -/
theorem push_ram_frame {s : State} (hr : IsRam s (stackAddr s.sp)) (v : Byte) :
    ∃ t, push v s = .ok t ∧ t = { s with sp := s.sp - 1, mem := t.mem } :=
  ⟨_, push_ram hr, rfl⟩

/-- Different stack pointers have different stack bytes. -/
theorem stackAddr_ne {p q : Byte} (h : p ≠ q) : stackAddr p ≠ stackAddr q := fun he => h <| by
  have := congrArg BitVec.toNat he
  rw [stackAddr_toNat, stackAddr_toNat] at this
  exact BitVec.eq_of_toNat_eq (by omega)

/-- A word pushed to RAM: it answers, moves no peripheral, and stands high byte above low byte (R281). -/
theorem pushWord_ram {s : State} (hwf : Memory.wf s.mem = true) (h0 : IsRam s (stackAddr s.sp))
    (h1 : IsRam s (stackAddr (s.sp - 1))) (w : Addr) :
    ∃ t, pushWord w s = .ok t ∧ t = { s with sp := s.sp - 2, mem := t.mem } ∧
      peek t (stackAddr s.sp) = some (highByte w) ∧ peek t (stackAddr (s.sp - 1)) = some (lowByte w) := by
  obtain ⟨s1, hp, hs1⟩ := push_ram_frame h0 (highByte w)
  have hsp : s1.sp = s.sp - 1 := by rw [hs1]
  have h1' : IsRam s1 (stackAddr s1.sp) := by rw [hsp, hs1]; exact h1
  obtain ⟨t, hq, ht⟩ := push_ram_frame h1' (lowByte w)
  refine ⟨t, by rw [pushWord, hp, withState_ok, hq], ?_, ?_, ?_⟩
  · rw [ht, hsp, hs1, BitVec.sub_sub]
    rfl
  · rw [(push_frame hq).2.2 _ (by rw [hsp]; exact stackAddr_ne (by bv_omega))]
    exact push_peek_same hwf h0 hp
  · rw [← hsp]
    exact push_peek_same ((push_fabricStep hp).wf hwf) h1' hq

/-- A word pulled from RAM or ROM (R282). -/
theorem pullWord_of_peek {s : State} {lo hi : Byte} (h1 : peek s (stackAddr (s.sp + 1)) = some lo)
    (h2 : peek s (stackAddr (s.sp + 2)) = some hi) : pullWord s = .ok (word lo hi, setReg .sp (s.sp + 2) s) := by
  have hsp : s.sp + 2 = (setReg .sp (s.sp + 1) s).sp + 1 := by
    rw [setReg_sp_sp, BitVec.add_assoc]; rfl
  have h2 : peek (setReg .sp (s.sp + 1) s) (stackAddr ((setReg .sp (s.sp + 1) s).sp + 1)) = some hi := hsp ▸ h2
  rw [pullWord, pull_of_peek h1, withAnswer_ok, pull_of_peek h2, withAnswer_ok, ← hsp]
  rfl

/-- JSR over RAM in full (R281). -/
theorem exec_jsr_ram {s : State} (hwf : Memory.wf s.mem = true) (h0 : IsRam s (stackAddr s.sp))
    (h1 : IsRam s (stackAddr (s.sp - 1))) (lo hi : Byte) :
    ∃ t, exec (.jsr lo hi) s = .next t ∧
      t = { s with sp := s.sp - 2, cp := word lo hi, cycleCount := s.cycleCount + 6, mem := t.mem } ∧
      peek t (stackAddr s.sp) = some (highByte (offsetAddr s.cp 2)) ∧
      peek t (stackAddr (s.sp - 1)) = some (lowByte (offsetAddr s.cp 2)) ∧
      ∀ a, a ≠ stackAddr s.sp → a ≠ stackAddr (s.sp - 1) → peek t a = peek s a := by
  obtain ⟨u, hp, hu, hhi, hlo⟩ := pushWord_ram hwf h0 h1 (offsetAddr s.cp 2)
  refine ⟨jumpTo (word lo hi) 6 u, callSubroutine_next.2 ⟨u, hp, rfl⟩, ?_, hhi, hlo, (pushWord_ok hp).2.2⟩
  rw [hu]
  rfl

/-- RTS over RAM or ROM in full (R282). -/
theorem exec_rts_of_peek {s : State} {lo hi : Byte} (h1 : peek s (stackAddr (s.sp + 1)) = some lo)
    (h2 : peek s (stackAddr (s.sp + 2)) = some hi) :
    exec .rts s = .next { s with sp := s.sp + 2, cp := word lo hi + 1, cycleCount := s.cycleCount + 6 } :=
  returnFromSubroutine_next.2 ⟨_, _, pullWord_of_peek h1 h2, rfl⟩

/-- The return address as a number. -/
theorem offsetAddr_toNat (a : Addr) (k : Nat) : (offsetAddr a k).toNat = (a.toNat + k) % 65536 := by
  rw [offsetAddr, BitVec.toNat_add, BitVec.toNat_ofNat, Nat.add_mod_mod]

theorem byte_eq_ofNat {b : Byte} {n : Nat} (h : b.toNat = n) : b = BitVec.ofNat 8 n := by
  rw [← h, BitVec.ofNat_toNat, BitVec.setWidth_eq]

theorem highByte_offsetAddr (a : Addr) (k : Nat) : highByte (offsetAddr a k) = BitVec.ofNat 8 ((a.toNat + k) % 65536 / 256) :=
  byte_eq_ofNat (by rw [highByte_toNat, offsetAddr_toNat])

theorem lowByte_offsetAddr (a : Addr) (k : Nat) : lowByte (offsetAddr a k) = BitVec.ofNat 8 ((a.toNat + k) % 65536 % 256) :=
  byte_eq_ofNat (by rw [lowByte_toNat, offsetAddr_toNat])

/-- Settles O36. -/
theorem jsrResult : Obligations.JsrResult := by
  intro lo hi s high low ret hwf h0 h1
  have hhigh : high = stackAddr s.sp := (stackAddr_eq s.sp).symm
  have hlow : low = stackAddr (s.sp - 1) := (stackAddr_sub_eq s.sp (k := 1) (by decide)).symm
  rw [hhigh] at h0 ⊢
  rw [hlow] at h1 ⊢
  obtain ⟨t, ht, he, hhi, hlo, hother⟩ := exec_jsr_ram hwf h0 h1 lo hi
  have hsp : s.sp - 2 = BitVec.ofNat 8 (s.sp.toNat + 254) := by bv_omega
  refine ⟨t, ht, ?_, highByte_offsetAddr s.cp 2 ▸ hhi, lowByte_offsetAddr s.cp 2 ▸ hlo, hother⟩
  rw [← hsp, ← word_eq]
  exact he

/-- Settles O37. -/
theorem rtsResult : Obligations.RtsResult := by
  intro lo hi s h1 h2
  rw [← stackAddr_add_one_eq] at h1
  rw [← stackAddr_add_eq s.sp 2] at h2
  have hsp : s.sp + 2 = BitVec.ofNat 8 (s.sp.toNat + 2) := by bv_omega
  rw [exec_rts_of_peek h1 h2, hsp, word_eq, BitVec.ofNat_add (lo.toNat + 256 * hi.toNat) 1]
  rfl

/-- Settles O38: RTS pulls the two bytes JSR pushed, which make `cp0 + 2`. -/
theorem jsrThenRtsReturns : Obligations.JsrThenRtsReturns := by
  intro lo hi s hwf h0 h1
  obtain ⟨t, ht, he, hhi, hlo, hother⟩ := exec_jsr_ram hwf h0 h1 lo hi
  have hsp : t.sp = s.sp - 2 := by rw [he]
  have hlo : peek t (stackAddr (t.sp + 1)) = some (lowByte (offsetAddr s.cp 2)) := by
    rw [hsp, show s.sp - 2 + 1 = s.sp - 1 by bv_omega, hlo]
  have hhi : peek t (stackAddr (t.sp + 2)) = some (highByte (offsetAddr s.cp 2)) := by
    rw [hsp, show s.sp - 2 + 2 = s.sp by bv_omega, hhi]
  refine ⟨t, _, ht, exec_rts_of_peek hlo hhi, ?_, hother⟩
  rw [word_lowByte_highByte, show offsetAddr s.cp 2 + 1 = s.cp + 3 by rw [offsetAddr]; bv_omega, hsp,
    show s.sp - 2 + 2 = s.sp by bv_omega, he]
  simp only [BitVec.add_assoc]
  rfl

/-! ## BRK and RTI -/

/-- An address past page 1 is no stack byte. -/
theorem ne_stackAddr {a : Addr} (h : 512 ≤ a.toNat) (sp : Byte) : a ≠ stackAddr sp := fun he => by
  have := congrArg BitVec.toNat he
  rw [stackAddr_toNat] at this
  omega

/-- BRK's entry over RAM in full: the three pushes leave the vector's bytes (R284, R360). -/
theorem takeBreak_ram {s : State} {lo hi : Byte} (hwf : Memory.wf s.mem = true) (h0 : IsRam s (stackAddr s.sp))
    (h1 : IsRam s (stackAddr (s.sp - 1))) (h2 : IsRam s (stackAddr (s.sp - 2))) (hlo : peek s brkVector = some lo)
    (hhi : peek s (brkVector + 1) = some hi) :
    ∃ t, takeBreak s = .ok t ∧
      t = { s with sp := s.sp - 3, p := { s.p with i := true, d := false }, cp := word lo hi, mem := t.mem } ∧
      peek t (stackAddr s.sp) = some (highByte (offsetAddr s.cp 2)) ∧
      peek t (stackAddr (s.sp - 1)) = some (lowByte (offsetAddr s.cp 2)) ∧
      peek t (stackAddr (s.sp - 2)) = some s.p.pushed := by
  obtain ⟨s1, hp1, hs1, hhigh, hlow⟩ := pushWord_ram hwf h0 h1 (offsetAddr s.cp 2)
  have hsp : s1.sp = s.sp - 2 := by rw [hs1]
  have hram : IsRam s1 (stackAddr s1.sp) := by rw [hsp, hs1]; exact h2
  obtain ⟨s2, hp2, hs2⟩ := push_ram_frame hram s1.p.pushed
  have hother : ∀ {a}, a ≠ stackAddr (s.sp - 2) → peek s2 a = peek s1 a := (push_frame hp2).2.2 _ ∘ (hsp ▸ ·)
  have hvector : ∀ {a : Addr}, 512 ≤ a.toNat → peek s2 a = peek s a := fun ha => by
    rw [hother (ne_stackAddr ha _), (pushWord_ok hp1).2.2 _ (ne_stackAddr ha _) (ne_stackAddr ha _)]
  have hread : memRead16 brkVector (setStatus { s2.p with i := true, d := false } s2) =
      .ok (word lo hi, setStatus { s2.p with i := true, d := false } s2) :=
    memRead16_of_peek ((hvector (by decide)).trans hlo) ((hvector (by decide)).trans hhi)
  refine ⟨_, withState_eq_ok.2 ⟨s1, hp1, withState_eq_ok.2 ⟨s2, hp2, withAnswer_eq_ok.2 ⟨_, _, hread, rfl⟩⟩⟩,
    ?_, ?_, ?_, ?_⟩
  · rw [hs2, hsp, hs1, BitVec.sub_sub]
    rfl
  · exact (hother (stackAddr_ne (by bv_omega))).trans hhigh
  · exact (hother (stackAddr_ne (by bv_omega))).trans hlow
  · have hpushed : peek s2 (stackAddr s1.sp) = some s1.p.pushed :=
      push_peek_same ((pushWord_fabricStep hp1).wf hwf) hram hp2
    rw [hsp, show s1.p = s.p by rw [hs1]] at hpushed
    exact hpushed

/-- Settles O43. -/
theorem brkResult : Obligations.BrkResult := by
  intro lo hi s slot ret hwf h0 h1 h2 hlo hhi
  have hslot : ∀ k, k ≤ 256 → slot k = stackAddr (s.sp - BitVec.ofNat 8 k) := fun k hk => (stackAddr_sub_eq s.sp hk).symm
  have hslot0 : slot 0 = stackAddr s.sp := (hslot 0 (by decide)).trans (congrArg stackAddr (BitVec.sub_zero s.sp))
  have hslot1 : slot 1 = stackAddr (s.sp - 1) := hslot 1 (by decide)
  have hslot2 : slot 2 = stackAddr (s.sp - 2) := hslot 2 (by decide)
  rw [hslot0] at h0 ⊢
  rw [hslot1] at h1 ⊢
  rw [hslot2] at h2 ⊢
  obtain ⟨t, ht, he, hhigh, hlow, hstatus⟩ := takeBreak_ram hwf h0 h1 h2 hlo hhi
  refine ⟨addCycles 7 t, breakTrap_next.2 ⟨t, ht, rfl⟩, ?_, highByte_offsetAddr s.cp 2 ▸ hhigh,
    lowByte_offsetAddr s.cp 2 ▸ hlow, hstatus, (takeBreak_ok ht).2.2⟩
  rw [← word_eq, he]
  rfl

/-- Settles O44: the status byte is pulled first, then CP, and P's update leaves the stack. -/
theorem rtiResult : Obligations.RtiResult := by
  intro w lo hi s slot h1 h2 h3
  have hslot : ∀ k, slot k = stackAddr (s.sp + BitVec.ofNat 8 k) := fun k => (stackAddr_add_eq s.sp k).symm
  rw [hslot] at h1 h2 h3
  have hsp : ∀ k : Byte, s.sp + (1 + k) = s.sp + 1 + k := fun k => (BitVec.add_assoc s.sp 1 k).symm
  have hword : pullWord (setStatus (Status.pulled Config.pullB w s.p) (setReg .sp (s.sp + 1) s)) = _ :=
    pullWord_of_peek (lo := lo) (hi := hi) (hsp 1 ▸ h2) (hsp 2 ▸ h3)
  refine returnTrap_next.2 ⟨_, withAnswer_eq_ok.2 ⟨w, _, pull_of_peek h1, withAnswer_eq_ok.2 ⟨_, _, hword, rfl⟩⟩, ?_⟩
  rw [← word_eq, show s.sp + 3 = s.sp + 1 + 2 from hsp 2]
  rfl

end Sys2Proof.Machine

/-! # Proofs: the host's operations (70_reset_and_hazards.md, 20_memory.md R40, R41) -/

namespace Sys2Proof.Machine

/-! ## Registers -/

theorem Status.toByte_flushed : Status.flushed.toByte = 0x30 := by decide

/-- Settles O1: both are record updates, and P after a flush is a constant. -/
theorem flushAndMarkerLeaveResetValues : Obligations.FlushAndMarkerLeaveResetValues :=
  fun _ => ⟨rfl, rfl, rfl, rfl, Status.toByte_flushed, rfl, rfl, rfl, rfl, rfl⟩

/-- A byte written whole to P reads back with bit 5 set (R15, R396). -/
theorem Status.toByte_ofByte : ∀ w : Byte, (Status.ofByte w).toByte = w ||| 0x20 := by decide

theorem readWord_of_peek {a : Addr} {s : State} {lo hi : Byte} (h1 : peek s a = some lo) (h2 : peek s (a + 1) = some hi) :
    readWord a s = (.ok (word lo hi), s) := by
  rw [readWord, fabricRead_of_peek h1, afterRead, fabricRead_of_peek h2, afterRead]

/-- Settles O57. -/
theorem hostRegisterOperations : Obligations.HostRegisterOperations := by
  refine ⟨fun s v => ⟨fun h => ?_, fun h => if_pos h, fun h f hf => ?_, fun h => if_neg (by omega)⟩,
    fun s lo hi h1 h2 => ?_, fun s a => rfl⟩
  · exact ⟨if_pos h, if_pos h, if_pos h, if_pos h, _, if_pos h, Status.toByte_ofByte _⟩
  · have hwide : ¬v < 256 := by omega
    cases f with
    | cp => exact absurd rfl hf
    | a | x | y | sp | status => exact if_neg hwide
  · have h : readWord initVector s = (.ok (word lo hi), s) := readWord_of_peek h1 h2
    rw [runInit, h, word_eq]
    rfl

/-! ## Writes of memory -/

/-- How far an address lies past another, modulo 65536. -/
theorem addr_sub_toNat (a b : Addr) : (a - b).toNat = (a.toNat + 65536 - b.toNat) % 65536 := by
  have := b.isLt
  rw [BitVec.toNat_sub]
  omega

/-- An address counted from another. -/
theorem addr_eq_add_sub (a b : Addr) : a = b + BitVec.ofNat 16 (a - b).toNat := by
  rw [BitVec.ofNat_toNat, BitVec.setWidth_eq, BitVec.add_comm, BitVec.sub_add_cancel]

theorem add_ofNat_sub (a : Addr) {k : Nat} (hk : k < 65536) : (a + BitVec.ofNat 16 k - a).toNat = k := by
  rw [BitVec.add_comm, BitVec.add_sub_cancel, BitVec.toNat_ofNat]
  exact Nat.mod_eq_of_lt hk

theorem fillCount_eq (start last : Addr) : fillCount start last = (last.toNat + 65536 - start.toNat) % 65536 + 1 := by
  rw [fillCount, addr_sub_toNat]

theorem fillCount_le (start last : Addr) : fillCount start last ≤ 65536 := by
  have := (last - start).isLt
  rw [fillCount]
  omega

theorem lt_of_lt_fillCount {start last : Addr} {k : Nat} (h : k < fillCount start last) : k < 65536 :=
  Nat.lt_of_lt_of_le h (fillCount_le start last)

/-- A fill over RAM: it succeeds, and each address of the range shows the value. -/
theorem memoryFill_ram {s : State} {start last : Addr} (value : Option Byte) (hwf : Memory.wf s.mem = true)
    (hram : ∀ k < fillCount start last, IsRam s (start + BitVec.ofNat 16 k)) :
    ∃ t, memoryFill start last value s = .done t ∧ t = { s with mem := t.mem } ∧
      ∀ a : Addr, peek t a = if (a - start).toNat < fillCount start last then some (fillValue value) else peek s a := by
  have hlen : (List.replicate (fillCount start last) (fillValue value)).length = fillCount start last :=
    List.length_replicate
  obtain ⟨m, hm⟩ := writeAll_ram (bs := List.replicate (fillCount start last) (fillValue value)) (hlen.symm ▸ hram)
  obtain ⟨-, -, hin, hout⟩ := writeAll_done (hlen.symm ▸ fillCount_le start last) hm
  refine ⟨_, hm, rfl, fun a => ?_⟩
  split
  · rename_i ha
    rw [addr_eq_add_sub a start]
    exact hin hwf _ _ (List.getElem?_replicate_of_lt ha) (hram _ ha)
  · rename_i ha
    refine hout a fun k hk he => ha ?_
    rw [hlen] at hk
    rwa [he, add_ofNat_sub start (lt_of_lt_fillCount hk)]

/-- The first byte whose write fails ends the writes: the bytes before it stay written, and nothing else has changed but
a peripheral that saw a write (R39, R392). -/
theorem writeAll_failed {a : Addr} {pre rest : List Byte} {b : Byte} {s u t : State} {f : Fault}
    (hl : pre.length ≤ 65536) (hu : writeAll a pre s = .done u)
    (hf : fabricWrite (a + BitVec.ofNat 16 pre.length) b u = (some f, t)) :
    writeAll a (pre ++ b :: rest) s = .failed (.fabric f) t ∧ SameButPeripherals u t ∧
      (Memory.wf s.mem = true → ∀ k c, pre[k]? = some c → IsRam s (a + BitVec.ofNat 16 k) →
        peek t (a + BitVec.ofNat 16 k) = some c) ∧
      ∀ x, (∀ k < pre.length, x ≠ a + BitVec.ofNat 16 k) → peek t x = peek s x := by
  have hsame := fabricWrite_failed hf
  obtain ⟨-, -, hin, hout⟩ := writeAll_done hl hu
  refine ⟨?_, hsame, fun hwf k c hk hram => ?_, fun x hx => ?_⟩
  · rw [writeAll_append, hu]
    simp only [writeAll, hf]
  · rw [hsame.peek, hin hwf k c hk hram]
  · rw [hsame.peek, hout x hx]

theorem memoryWrite_eq_writeAll {addr : Addr} {bytes : List Byte} (h : addr.toNat + bytes.length ≤ 65536) (s : State) :
    memoryWrite addr bytes s = writeAll addr bytes s :=
  if_neg (by omega)

/-- A write that is done did not overflow. -/
theorem memoryWrite_done {addr : Addr} {bytes : List Byte} {s t : State} (h : memoryWrite addr bytes s = .done t) :
    bytes.length ≤ 65536 ∧ writeAll addr bytes s = .done t := by
  unfold memoryWrite at h
  split at h
  · cases h
  · exact ⟨by omega, h⟩

/-- The part of a fill before its byte `k`, as the statement gives it: nothing, or the fill up to the byte before. -/
theorem writeAll_of_fill_prefix {start : Addr} {value : Option Byte} {k : Nat} {s u : State} (hk : k < 65536)
    (h : k = 0 ∧ u = s ∨ 1 ≤ k ∧ memoryFill start (start + BitVec.ofNat 16 (k - 1)) value s = .done u) :
    writeAll start (List.replicate k (fillValue value)) s = .done u := by
  rcases h with ⟨rfl, rfl⟩ | ⟨hpos, h⟩
  · rfl
  · rwa [memoryFill, fillCount, add_ofNat_sub start (by omega), Nat.sub_add_cancel hpos] at h

/-- Settles O58. -/
theorem hostMemoryWrites : Obligations.HostMemoryWrites := by
  refine ⟨fun s start last value => ?_, fun s addr bytes h => if_pos h, fun s addr bytes h hram => ?_,
    fun s t addr bytes hwf h => ?_, fun s u t addr pre rest b f hl hu hf => ?_,
    fun s u t start last value k f hk hu hf => ?_⟩
  · intro inRange hwf hram
    have hrange : ∀ a, inRange a ↔ (a - start).toNat < fillCount start last := fun a => by
      rw [addr_sub_toNat, fillCount_eq]
    obtain ⟨t, ht, he, hpeek⟩ := memoryFill_ram (start := start) (last := last) value hwf fun k hk => hram _ <| by
      rwa [hrange, add_ofNat_sub start (lt_of_lt_fillCount hk)]
    refine ⟨t, ht, he, fun a => ?_⟩
    simp only [hpeek, hrange]
    rfl
  · obtain ⟨m, hm⟩ := writeAll_ram hram
    exact ⟨_, (memoryWrite_eq_writeAll h s).trans hm, rfl⟩
  · obtain ⟨hl, hd⟩ := memoryWrite_done h
    obtain ⟨he, hmap, hin, hout⟩ := writeAll_done hl hd
    exact ⟨he, hmap, hin hwf, hout⟩
  · obtain ⟨hlen, hd⟩ := memoryWrite_done hu
    rw [memoryWrite_eq_writeAll (by rw [List.length_append, List.length_cons]; omega)]
    exact writeAll_failed hlen hd hf
  · have hk16 : k < 65536 := by omega
    have hd := writeAll_of_fill_prefix hk16 hu
    have hlen : (List.replicate k (fillValue value)).length = k := List.length_replicate
    have hsplit : List.replicate (fillCount start last) (fillValue value) =
        List.replicate k (fillValue value) ++ fillValue value :: List.replicate (fillCount start last - k - 1) (fillValue value) := by
      rw [← List.replicate_succ, List.replicate_append_replicate]
      have := fillCount_eq start last
      congr 1
      omega
    obtain ⟨hfail, hsame, hin, hout⟩ := writeAll_failed (by omega) hd (hlen.symm ▸ hf)
    refine ⟨?_, hsame, fun hwf j hj hram => hin hwf j _ (List.getElem?_replicate_of_lt hj) hram, fun a ha => ?_⟩
    · rw [memoryFill, hsplit]
      exact hfail
    · exact hout a fun j hj => ha j (hlen ▸ hj)

/-! ## Slices -/

/-- At a mapped address a read fails with the own error of a peripheral there. -/
theorem fabricRead_error_of_mapped {a : Addr} {s t : State} {e : Fault} (hm : lookup s.regions a ≠ none)
    (h : fabricRead a s = (.error e, t)) : ∃ k, e = .peripheralError k a ∧ IsPeripheral s a := by
  cases hl : lookup s.regions a with
  | none => exact absurd hl hm
  | some r =>
    cases hk : r.kind with
    | ram => rw [fabricRead_of_peek (v := Memory.read s.mem a.toNat) (by simp [peek, hl, hk])] at h; cases h
    | rom => rw [fabricRead_of_peek (v := Memory.read s.mem a.toNat) (by simp [peek, hl, hk])] at h; cases h
    | peripheral d st =>
      simp only [fabricRead, hl, hk, Prod.mk.injEq] at h
      cases hr : (Config.periphRead d st (r.offset a)).1 with
      | ok b => rw [hr] at h; cases h.1
      | error k =>
        rw [hr] at h
        cases h.1
        exact ⟨k, rfl, by simp [IsPeripheral, hl, Region.stores, hk]⟩

theorem slice_tail {P : Addr → Prop} {a : Addr} {n : Nat} (h : ∀ k < n + 1, P (a + BitVec.ofNat 16 k)) :
    P a ∧ ∀ k < n, P (a + 1 + BitVec.ofNat 16 k) :=
  ⟨by simpa using h 0 (by omega), fun k hk => by rw [addr_next]; exact h (k + 1) (by omega)⟩

/-- Reads of mapped addresses answer the bytes in order, or the own error of a peripheral that is there (R40). -/
theorem readAll_of_mapped {a : Addr} {n : Nat} {s t : State} {r : Except Fault (List Byte)}
    (hm : ∀ k < n, lookup s.regions (a + BitVec.ofNat 16 k) ≠ none) (h : readAll (sliceAddrs a n) s = (r, t)) :
    (∀ bytes, r = .ok bytes → bytes.length = n ∧
      ∀ k b, k < n → peek s (a + BitVec.ofNat 16 k) = some b → bytes[k]? = some b) ∧
    ∀ f, r = .error f → ∃ k x, f = .peripheralError k x ∧ IsPeripheral s x := by
  induction n generalizing a s t r with
  | zero =>
    cases h
    refine ⟨fun bytes he => ?_, nofun⟩
    cases he
    exact ⟨rfl, fun k b hk => absurd hk (Nat.not_lt_zero k)⟩
  | succ n ih =>
    obtain ⟨hm0, hmn⟩ := slice_tail (P := fun x => lookup s.regions x ≠ none) hm
    rw [sliceAddrs, readAll] at h
    have hsame := fabricRead_same a s
    rcases h0 : fabricRead a s with ⟨_ | b0, s1⟩
    · rw [h0] at h
      cases h
      obtain ⟨k, rfl, hp⟩ := fabricRead_error_of_mapped hm0 h0
      exact ⟨nofun, fun f he => Except.error.inj he ▸ ⟨k, a, rfl, hp⟩⟩
    · have hsame : SameButPeripherals s s1 := by rwa [h0] at hsame
      rw [h0] at h
      rcases h1 : readAll (sliceAddrs (a + 1) n) s1 with ⟨r1, s2⟩
      obtain ⟨hok, herr⟩ := ih (fun k hk => mt (unmapped_congr hsame.2 _).1 (hmn k hk)) h1
      rw [afterRead, h1] at h
      cases r1 with
      | error f =>
        cases h
        obtain ⟨k, x, hf, hp⟩ := herr f rfl
        exact ⟨nofun,
          fun f' he => Except.error.inj he ▸ ⟨k, x, hf, (isPeripheral_congr hsame.2 x).1 hp⟩⟩
      | ok bs =>
        cases h
        obtain ⟨hl, hb⟩ := hok bs rfl
        refine ⟨fun bytes he => ?_, nofun⟩
        cases he
        refine ⟨congrArg (· + 1) hl, fun k b hk hp => ?_⟩
        cases k with
        | zero =>
          rw [fabricRead_of_peek (by simpa using hp)] at h0
          cases h0
          rfl
        | succ k => exact hb k b (by omega) (by rw [hsame.peek, addr_next]; exact hp)

/-- Reads of RAM and ROM answer and change nothing. -/
theorem readAll_of_peek {a : Addr} {n : Nat} {s : State} (h : ∀ k < n, peek s (a + BitVec.ofNat 16 k) ≠ none) :
    ∃ bytes, readAll (sliceAddrs a n) s = (.ok bytes, s) := by
  induction n generalizing a with
  | zero => exact ⟨[], rfl⟩
  | succ n ih =>
    obtain ⟨h0, hn⟩ := slice_tail (P := fun x => peek s x ≠ none) h
    obtain ⟨b, hb⟩ := Option.ne_none_iff_exists'.1 h0
    obtain ⟨bs, hbs⟩ := ih hn
    exact ⟨b :: bs, by rw [sliceAddrs, readAll, fabricRead_of_peek hb, afterRead, hbs, afterRead]⟩

theorem sliceError_first {a : Addr} {n : Nat} {s : State} (hn : 1 ≤ n) (h : lookup s.regions a = none) :
    sliceError a n s = some (.unmappedAddress a) := by
  obtain ⟨n, rfl⟩ := Nat.exists_eq_add_of_le' hn
  simp [sliceError, sliceAddrs, h]

theorem sliceError_later {a : Addr} {n : Nat} {s : State} (h0 : lookup s.regions a ≠ none)
    (h : ∃ k, 1 ≤ k ∧ k < n ∧ lookup s.regions (a + BitVec.ofNat 16 k) = none) :
    sliceError a n s = some (.crossBoundaryRead a n) := by
  obtain ⟨k, hk, hkn, hl⟩ := h
  obtain ⟨k, rfl⟩ := Nat.exists_eq_add_of_le' hk
  obtain ⟨n, rfl⟩ := Nat.exists_eq_add_of_le' (Nat.le_trans hk (Nat.le_of_lt hkn))
  have hany : ∃ x ∈ sliceAddrs (a + 1) n, lookup s.regions x = none :=
    ⟨_, mem_sliceAddrs.2 ⟨k, by omega, rfl⟩, by rw [addr_next, hl]⟩
  simpa [sliceError, sliceAddrs, h0] using hany

theorem readSlice_of_error {a : Addr} {n : Nat} {s : State} {f : Fault} (h : sliceError a n s = some f) :
    readSlice a n s = (.error f, s) := by
  rw [readSlice, h]

theorem readSlice_of_mapped {a : Addr} {n : Nat} {s : State}
    (h : ∀ k < n, lookup s.regions (a + BitVec.ofNat 16 k) ≠ none) :
    readSlice a n s = readAll (sliceAddrs a n) s := by
  rw [readSlice, sliceError_eq_none.2 h]

theorem writeSlice_of_error {a : Addr} {bs : List Byte} {s : State} {f : Fault} (h : sliceError a bs.length s = some f) :
    ∃ t, writeSlice a bs s = .failed (.fabric f) t :=
  ⟨_, writeSlice_eq_failed.2 ⟨rfl, .inl ⟨f, h, rfl⟩⟩⟩

theorem writeAll_cons_done {a : Addr} {b : Byte} {rest : List Byte} {s t : State} :
    writeAll a (b :: rest) s = .done t ↔ ∃ u, fabricWrite a b s = (none, u) ∧ writeAll (a + 1) rest u = .done t := by
  rw [writeAll]
  rcases fabricWrite a b s with ⟨_ | f, u⟩ <;> simp

/-- What a write that succeeds needs: a mapped address. -/
theorem fabricWrite_mapped {a : Addr} {b : Byte} {s u : State} (h : fabricWrite a b s = (none, u)) :
    lookup s.regions a ≠ none := by
  intro hl
  simp [fabricWrite, hl] at h

theorem mapped_of_ram {a : Addr} {s : State} (h : IsRam s a) : lookup s.regions a ≠ none := by
  intro hl
  simp [IsRam, hl] at h

theorem fabricMap_of_fabricWrite {a : Addr} {b : Byte} {s u : State} {r : Option Fault} (h : fabricWrite a b s = (r, u)) :
    fabricMap u = fabricMap s := by
  have := (fabricWrite_fabricStep a b s).map
  rwa [h] at this

/-- A slice write that succeeds is one write after another (R41). -/
theorem writeSlice_cons_done {a : Addr} {b : Byte} {rest : List Byte} {s t : State} :
    writeSlice a (b :: rest) s = .done t ↔
      ∃ u, fabricWrite a b s = (none, u) ∧ writeSlice (a + 1) rest u = .done t := by
  simp only [writeSlice_eq_done, sliceError_eq_none, writeAll_cons_done, List.length_cons]
  constructor
  · rintro ⟨hm, u, hu, hd⟩
    obtain ⟨-, hrest⟩ := slice_tail (P := fun x => lookup s.regions x ≠ none) hm
    exact ⟨u, hu, fun k hk => mt (unmapped_congr (fabricMap_of_fabricWrite hu) _).1 (hrest k hk), hd⟩
  · rintro ⟨u, hu, hm, hd⟩
    refine ⟨fun k hk => ?_, u, hu, hd⟩
    cases k with
    | zero => simpa using fabricWrite_mapped hu
    | succ k =>
      rw [← addr_next]
      exact mt (unmapped_congr (fabricMap_of_fabricWrite hu) _).2 (hm k (by omega))

/-- A failed slice write leaves the registers, ROM and everything outside its range (R41). -/
theorem writeSlice_failed_frame {a : Addr} {bs : List Byte} {s t : State} {e : VerbError} (h : writeSlice a bs s = .failed e t) :
    t = { s with regions := t.regions, mem := t.mem } ∧ fabricMap t = fabricMap s ∧
    (∀ x, IsRom s x ∨ (∀ k < bs.length, x ≠ a + BitVec.ofNat 16 k) → peek t x = peek s x) ∧
    ∀ r ∈ s.regions, (∀ k < bs.length, r.holds (a + BitVec.ofNat 16 k) = false) → r ∈ t.regions := by
  obtain ⟨rfl, -⟩ := writeSlice_eq_failed.1 h
  have hstep := scrambleSlice_fabricStep s.mem a bs 0 (sliceAddrs a bs.length) s
  obtain ⟨he, hpeek, hreg⟩ := scrambleSlice_frame s.mem a bs 0 (sliceAddrs a bs.length) s
  refine ⟨he, hstep.map, fun x hx => ?_, fun r hr hout => hreg r hr fun x hx => ?_⟩
  · rcases hx with hrom | hout
    · exact hstep.fixed x fun hram => by rw [IsRom, hram] at hrom; cases hrom
    · refine hpeek x fun hx => ?_
      obtain ⟨k, hk, rfl⟩ := mem_sliceAddrs.1 hx
      exact hout k hk rfl
  · obtain ⟨k, hk, rfl⟩ := mem_sliceAddrs.1 hx
    exact hout k hk

/-- Settles O59. -/
theorem sliceReadsAndWrites : Obligations.SliceReadsAndWrites := by
  refine ⟨fun addr n s => ⟨fun hn h => readSlice_of_error (sliceError_first hn h),
      fun h0 h => readSlice_of_error (sliceError_later h0 h), fun hm => ?_⟩,
    fun _ _ => rfl, fun _ _ _ _ _ => writeSlice_cons_done, fun addr bytes s h => ?_,
    fun addr bytes s => ⟨fun hn h => writeSlice_of_error (sliceError_first hn h),
      fun h0 h => writeSlice_of_error (sliceError_later h0 h)⟩,
    fun addr pre rest b s u v f hm hu hf => ?_, fun addr bytes s t e h => writeSlice_failed_frame h⟩
  · have hsame := readAll_same (sliceAddrs addr n) s
    rcases h : readAll (sliceAddrs addr n) s with ⟨r, t⟩
    obtain ⟨hok, herr⟩ := readAll_of_mapped hm h
    refine ⟨r, t, (readSlice_of_mapped hm).trans h, by rwa [h] at hsame, hok, herr, fun hp => ?_⟩
    obtain ⟨bytes, hb⟩ := readAll_of_peek hp
    rw [h] at hb
    cases hb
    exact ⟨bytes, rfl, rfl⟩
  · obtain ⟨m, hd⟩ := writeAll_ram h
    exact ⟨_, writeSlice_eq_done.2 ⟨sliceError_eq_none.2 fun k hk => mapped_of_ram (h k hk), hd⟩⟩
  · obtain ⟨-, hd⟩ := writeSlice_eq_done.1 hu
    refine ⟨_, writeSlice_eq_failed.2 ⟨rfl, .inr ⟨sliceError_eq_none.2 fun k hk => hm k ?_, v, ?_⟩⟩⟩
    · simp only [List.length_append, List.length_cons] at hk
      omega
    · rw [writeAll_append, hd]
      simp only [writeAll, hf]

/-! ## Runs -/

theorem eq_stp_of_mnemonic {i : Instr} (h : i.mnemonic = .stp) : i = .stp := by
  cases i with
  | stp => rfl
  | _ => cases h

theorem isStp_iff {i : Instr} : isStp i = true ↔ i = .stp := by
  rw [isStp, decide_eq_true_iff]
  exact ⟨eq_stp_of_mnemonic, fun h => h ▸ rfl⟩

theorem report_success {s t : State} {o : StepOutcome} :
    report s = .success o t ↔ ∃ i s1, fetch s = .ok (i, s1) ∧ exec i s1 = .next t ∧ o = outcomeOf i s t := by
  unfold report
  rcases hf : fetch s with f | ⟨i, s1⟩
  · simp
  · simp only [Except.ok.injEq, Prod.mk.injEq]
    cases he : exec i s1 with
    | next u => exact ⟨fun h => by cases h; exact ⟨i, s1, ⟨rfl, rfl⟩, he, rfl⟩, by
        rintro ⟨_, _, ⟨rfl, rfl⟩, hu, rfl⟩; rw [he] at hu; cases hu; rfl⟩
    | fault f => exact ⟨nofun, by rintro ⟨_, _, ⟨rfl, rfl⟩, hu, -⟩; rw [he] at hu; cases hu⟩
    | refused r => exact ⟨nofun, by rintro ⟨_, _, ⟨rfl, rfl⟩, hu, -⟩; rw [he] at hu; cases hu⟩

theorem report_of_next {s t : State} (h : step s = .next t) : ∃ o, report s = .success o t := by
  obtain ⟨i, s1, hf, he⟩ := step_next.1 h
  exact ⟨_, report_success.2 ⟨i, s1, hf, he, rfl⟩⟩

theorem report_of_fault {s : State} {f : Fault} (h : step s = .fault f) : report s = .error f := by
  rcases step_fault.1 h with hf | ⟨i, s1, hf, he⟩
  · simp only [report, hf]
  · simp only [report, hf, he]

theorem runLoop_of_error {g : RunGuard} {stopOn : Bool} {c : Condition} {fuel : Nat} {s : State} {f : Fault}
    (h : report s = .error f) : runLoop g stopOn c (fuel + 1) s = .error f := by
  rw [runLoop, h]

/-- A terminal step ends a loop, before the predicate is asked (R372, R394). -/
theorem runLoop_of_terminal {stopOn : Bool} {c : Condition} {fuel : Nat} {s t : State} {o : StepOutcome}
    (h : report s = .success o t) (ht : o.terminal = true) :
    runLoop Config.runGuard stopOn c (fuel + 1) s = haltResult o t := by
  rw [runLoop, h]
  exact if_pos ht

/-- Else the predicate's answer decides (R394). -/
theorem runLoop_of_not_terminal {stopOn : Bool} {c : Condition} {fuel : Nat} {s t : State} {o : StepOutcome}
    (h : report s = .success o t) (ht : o.terminal = false) :
    runLoop Config.runGuard stopOn c (fuel + 1) s =
      match c.eval t with
      | (.error f, u) => .predicateError f u
      | (.ok hit, u) => afterPredicate stopOn hit u (runLoop Config.runGuard stopOn c fuel) := by
  rw [runLoop, h]
  exact if_neg (Bool.not_eq_true _ ▸ ht)

theorem haltResult_stp {o : StepOutcome} (h : o.instr = .stp) (t : State) : haltResult o t = .stpHalted t :=
  if_pos (isStp_iff.2 h)

theorem haltResult_other {o : StepOutcome} (h : o.instr ≠ .stp) (t : State) : haltResult o t = .noProgress t :=
  if_neg (mt isStp_iff.1 h)

/-- Settles O60. -/
theorem runEndsAtTerminalStepOrError : Obligations.RunEndsAtTerminalStepOrError := by
  refine ⟨fun s t c fuel => ⟨fun h => ?_, fun f h => ?_, fun o h ht => ⟨fun hi => ?_, fun hi => ?_⟩,
    fun o h ht => ⟨fun u hu => ?_, fun u hu => ?_, fun f u hu => ?_⟩⟩, Condition.eval_same⟩
  · obtain ⟨o, ho⟩ := report_of_next h
    simp only [run, ho]
  · have hr := report_of_fault h
    exact ⟨by simp only [run, hr], runLoop_of_error hr, runLoop_of_error hr⟩
  · exact ⟨(runLoop_of_terminal h ht).trans (haltResult_stp hi t), (runLoop_of_terminal h ht).trans (haltResult_stp hi t)⟩
  · exact ⟨(runLoop_of_terminal h ht).trans (haltResult_other hi t), (runLoop_of_terminal h ht).trans (haltResult_other hi t)⟩
  all_goals
    simp only [run, runLoop_of_not_terminal h ht, hu, afterPredicate]
    trivial

end Sys2Proof.Machine

/-! # Proofs: what an instruction may write (10_state.md R14, R24) -/

namespace Sys2Proof.Machine

/-! ## Flags by name -/

/-- The stored flags of P. -/
inductive Flag where
  | n | v | b | d | i | z | c

def Status.flag (p : Status) : Flag → Bool
  | .n => p.n
  | .v => p.v
  | .b => p.b
  | .d => p.d
  | .i => p.i
  | .z => p.z
  | .c => p.c

/-- P with one flag written. -/
def Status.set (k : Flag) (x : Bool) (p : Status) : Status :=
  match k with
  | .n => { p with n := x }
  | .v => { p with v := x }
  | .b => { p with b := x }
  | .d => { p with d := x }
  | .i => { p with i := x }
  | .z => { p with z := x }
  | .c => { p with c := x }

theorem Status.flag_set_ne {k l : Flag} (h : l ≠ k) (x : Bool) (p : Status) : (p.set k x).flag l = p.flag l := by
  cases k <;> cases l <;> simp_all [Status.flag, Status.set]

theorem Status.flag_setNZ {k : Flag} (h : k ∉ [Flag.n, .z]) (v : Byte) (p : Status) :
    (Status.setNZ v p).flag k = p.flag k := by
  cases k <;> simp_all [Status.flag, Status.setNZ]

theorem Status.flag_setArith {k : Flag} (h : k ∉ [Flag.n, .v, .z, .c]) (r : ArithResult) (p : Status) :
    (Status.setArith r p).flag k = p.flag k := by
  cases k <;> simp_all [Status.flag, Status.setArith]

theorem Status.flag_setShift {k : Flag} (h : k ∉ [Flag.n, .z, .c]) (r : ShiftResult) (p : Status) :
    (Status.setShift r p).flag k = p.flag k := by
  cases k <;> simp_all [Status.flag, Status.setShift, Status.setNZ]

theorem Status.flag_compare {k : Flag} (h : k ∉ [Flag.n, .z, .c]) (reg m : Byte) (p : Status) :
    (Status.compare reg m p).flag k = p.flag k := by
  cases k <;> simp_all [Status.flag, Status.compare]

theorem Status.flag_testZ {k : Flag} (h : k ≠ .z) (a m : Byte) (p : Status) : (Status.testZ a m p).flag k = p.flag k :=
  flag_set_ne h (decide (a &&& m = 0)) p

/-- BIT immediate writes Z alone (R173, decision D9). -/
theorem Status.flag_bitTest {k : Flag} {imm : Bool} (hz : k ≠ .z) (h : imm = true ∨ k ∉ [Flag.n, .v]) (a m : Byte)
    (p : Status) : (Status.bitTest Config.bitFlags imm a m p).flag k = p.flag k := by
  cases imm with
  | true => exact flag_testZ hz a m p
  | false => cases k <;> simp at hz h <;> rfl

/-- A pulled P keeps B alone (decision D10). -/
theorem Status.flag_pulled {k : Flag} (h : k ∉ [Flag.n, .v, .d, .i, .z, .c]) (w : Byte) (p : Status) :
    (Status.pulled Config.pullB w p).flag k = p.flag k := by
  cases k <;> simp_all [Status.flag, Status.pulled, Config.pullB]

theorem Status.flag_break {k : Flag} (h : k ∉ [Flag.d, .i]) (p : Status) :
    ({ p with i := true, d := false } : Status).flag k = p.flag k := by
  cases k <;> simp_all [Status.flag]

/-! ## The rows of a shape -/

/-- The flags in which no condition of a branch looks. -/
def inertFlags : List Flag := [.b, .d, .i]

/-- The mnemonics and modes whose shape a shape can be (R66), and what its functions are then. -/
def Shape.RowOf (mode : Mode) (mn : Mnemonic) : Shape → Prop
  | .load r src => (mn = .lda ∧ r = .a ∨ mn = .ldx ∧ r = .x ∨ mn = .ldy ∧ r = .y) ∧ modeSource mode = some src
  | .store v m =>
      (mn ∈ [.sta, .stx, .sty] ∧ (∃ r, v = fun s => s.reg r) ∨ mn = .stz ∧ v = fun _ => 0x00) ∧ modeAddress mode = some m
  | .transfer _ dst => mn ∈ [.tax, .tsx] ∧ dst = .x ∨ mn = .tay ∧ dst = .y ∨ mn ∈ [.txa, .tya] ∧ dst = .a
  | .toStackPointer => mn = .txs
  | .arith f src => (mn = .adc ∧ f = adcResult ∨ mn = .sbc ∧ f = sbcResult) ∧ modeSource mode = some src
  | .logic _ src => mn ∈ [.and, .ora, .eor] ∧ modeSource mode = some src
  | .bitTest src => mn = .bit ∧ modeSource mode = some src
  | .testAndWrite _ m => mn ∈ [.tsb, .trb] ∧ modeAddress mode = some m
  | .modifyBit _ m => (∃ n, mn = .rmb n ∨ mn = .smb n) ∧ modeAddress mode = some m
  | .shiftAcc _ => mn ∈ [.asl, .lsr, .rol, .ror] ∧ modeAddress mode = none
  | .shiftMem _ m => mn ∈ [.asl, .lsr, .rol, .ror] ∧ modeAddress mode = some m
  | .stepReg r _ =>
      mn ∈ [.inc, .dec] ∧ r = .a ∧ modeAddress mode = none ∨ mn ∈ [.inx, .dex] ∧ r = .x ∨ mn ∈ [.iny, .dey] ∧ r = .y
  | .stepMem _ m => mn ∈ [.inc, .dec] ∧ modeAddress mode = some m
  | .compare _ src => mn ∈ [.cmp, .cpx, .cpy] ∧ modeSource mode = some src
  | .branch cond _ =>
      mn ∈ [.bpl, .bmi, .bvc, .bvs, .bcc, .bcs, .bne, .beq, .bra] ∧
        ∀ k ∈ inertFlags, ∀ (x : Bool) (p : Status), cond (p.set k x) = cond p
  | .bitBranch _ _ zp8 rel8 => (∃ n, mn = .bbr n ∨ mn = .bbs n) ∧ mode = .zprel zp8 rel8
  | .jump m => mn = .jmp ∧ modeAddress mode = some m
  | .call _ => mn = .jsr
  | .fromSubroutine => mn = .rts
  | .softBreak => mn = .brk
  | .fromBreak => mn = .rti
  | .pushByte v => mn ∈ [.pha, .phx, .phy] ∧ (∃ r, v = fun s => s.reg r) ∨ mn = .php ∧ v = fun s => s.p.pushed
  | .pullReg r => mn = .pla ∧ r = .a ∨ mn = .plx ∧ r = .x ∨ mn = .ply ∧ r = .y
  | .pullStatus => mn = .plp
  | .writeStatus f =>
      ∃ k x, f = Status.set k x ∧
        (mn ∈ [.clc, .sec] ∧ k = .c ∨ mn ∈ [.cli, .sei] ∧ k = .i ∨ mn ∈ [.cld, .sed] ∧ k = .d ∨ mn = .clv ∧ k = .v)
  | .noOperation => mn = .nop
  | .stop => mn = .stp
  | .unknown _ => True

section
variable {op : Byte} {mode : Mode} {P : Shape → Prop}

theorem withSource_elim {f : Source → Shape} (hf : ∀ src, modeSource mode = some src → P (f src)) (hu : P (.unknown op)) :
    P (withSource op f mode) := by
  unfold withSource
  split
  · exact hf _ ‹_›
  · exact hu

theorem withAddress_elim {f : AddrMode → Shape} (hf : ∀ m, modeAddress mode = some m → P (f m)) (hu : P (.unknown op)) :
    P (withAddress op f mode) := by
  unfold withAddress
  split
  · exact hf _ ‹_›
  · exact hu

theorem withAccumulator_elim {acc : Shape} {f : AddrMode → Shape} (hf : ∀ m, modeAddress mode = some m → P (f m))
    (ha : modeAddress mode = none → P acc) : P (withAccumulator acc f mode) := by
  unfold withAccumulator
  split
  · exact hf _ ‹_›
  · exact ha ‹_›

theorem withOffset_elim {cond : Status → Bool} (hf : ∀ rel8, P (.branch cond rel8)) (hu : P (.unknown op)) :
    P (withOffset op cond mode) := by
  cases mode with
  | rel rel8 => exact hf rel8
  | imp | acc | imm | mem | zprel | illegal => exact hu

theorem withBit_elim {n : Nat} {want : Bool} (hf : ∀ zp8 rel8, mode = .zprel zp8 rel8 → P (.bitBranch n want zp8 rel8))
    (hu : P (.unknown op)) : P (withBit op n want mode) := by
  cases mode with
  | zprel zp8 rel8 => exact hf zp8 rel8 rfl
  | imp | acc | imm | mem | rel | illegal => exact hu

theorem withTarget_elim (hf : ∀ target, P (.call target)) (hu : P (.unknown op)) : P (withTarget op mode) := by
  unfold withTarget
  split
  · exact hf _
  · exact hu
  · exact hu
end

theorem mem_inertFlags {k : Flag} : k ∈ inertFlags ↔ k = .b ∨ k = .d ∨ k = .i := by
  simp [inertFlags]

/-- A shape is that of its row, or no instruction's. -/
theorem shapeOf_row (op : Byte) (mode : Mode) (mn : Mnemonic) : (shapeOf op mode mn).RowOf mode mn := by
  have branch : ∀ {mn : Mnemonic} {cond : Status → Bool},
      mn ∈ [Mnemonic.bpl, .bmi, .bvc, .bvs, .bcc, .bcs, .bne, .beq, .bra] →
      (∀ k ∈ inertFlags, ∀ (x : Bool) (p : Status), cond (p.set k x) = cond p) →
      (withOffset op cond mode).RowOf mode mn := fun hmn hc =>
    withOffset_elim (P := fun sh => sh.RowOf mode _) (fun _ => ⟨hmn, hc⟩) trivial
  cases mn with
  | lda => exact withSource_elim (P := fun sh => sh.RowOf mode _) (fun _ h => ⟨.inl ⟨rfl, rfl⟩, h⟩) trivial
  | ldx => exact withSource_elim (P := fun sh => sh.RowOf mode _) (fun _ h => ⟨.inr (.inl ⟨rfl, rfl⟩), h⟩) trivial
  | ldy => exact withSource_elim (P := fun sh => sh.RowOf mode _) (fun _ h => ⟨.inr (.inr ⟨rfl, rfl⟩), h⟩) trivial
  | sta => exact withAddress_elim (P := fun sh => sh.RowOf mode _) (fun _ h => ⟨.inl ⟨by simp, .a, rfl⟩, h⟩) trivial
  | stx => exact withAddress_elim (P := fun sh => sh.RowOf mode _) (fun _ h => ⟨.inl ⟨by simp, .x, rfl⟩, h⟩) trivial
  | sty => exact withAddress_elim (P := fun sh => sh.RowOf mode _) (fun _ h => ⟨.inl ⟨by simp, .y, rfl⟩, h⟩) trivial
  | stz => exact withAddress_elim (P := fun sh => sh.RowOf mode _) (fun _ h => ⟨.inr ⟨rfl, rfl⟩, h⟩) trivial
  | adc => exact withSource_elim (P := fun sh => sh.RowOf mode _) (fun _ h => ⟨.inl ⟨rfl, rfl⟩, h⟩) trivial
  | sbc => exact withSource_elim (P := fun sh => sh.RowOf mode _) (fun _ h => ⟨.inr ⟨rfl, rfl⟩, h⟩) trivial
  | and | ora | eor | cmp | cpx | cpy =>
    exact withSource_elim (P := fun sh => sh.RowOf mode _) (fun _ h => ⟨by simp, h⟩) trivial
  | bit => exact withSource_elim (P := fun sh => sh.RowOf mode _) (fun _ h => ⟨rfl, h⟩) trivial
  | tsb | trb => exact withAddress_elim (P := fun sh => sh.RowOf mode _) (fun _ h => ⟨by simp, h⟩) trivial
  | jmp => exact withAddress_elim (P := fun sh => sh.RowOf mode _) (fun _ h => ⟨rfl, h⟩) trivial
  | rmb n => exact withAddress_elim (P := fun sh => sh.RowOf mode _) (fun _ h => ⟨⟨n, .inl rfl⟩, h⟩) trivial
  | smb n => exact withAddress_elim (P := fun sh => sh.RowOf mode _) (fun _ h => ⟨⟨n, .inr rfl⟩, h⟩) trivial
  | asl | lsr | rol | ror =>
    exact withAccumulator_elim (P := fun sh => sh.RowOf mode _) (fun _ h => ⟨by simp, h⟩) fun h => ⟨by simp, h⟩
  | inc | dec =>
    exact withAccumulator_elim (P := fun sh => sh.RowOf mode _) (fun _ h => ⟨by simp, h⟩) fun h => .inl ⟨by simp, rfl, h⟩
  | bpl | bmi | bvc | bvs | bcc | bcs | bne | beq | bra =>
    exact branch (by simp) fun k hk x p => by rcases mem_inertFlags.1 hk with rfl | rfl | rfl <;> rfl
  | bbr n => exact withBit_elim (P := fun sh => sh.RowOf mode _) (fun _ _ h => ⟨⟨n, .inl rfl⟩, h⟩) trivial
  | bbs n => exact withBit_elim (P := fun sh => sh.RowOf mode _) (fun _ _ h => ⟨⟨n, .inr rfl⟩, h⟩) trivial
  | jsr => exact withTarget_elim (P := fun sh => sh.RowOf mode _) (fun _ => rfl) trivial
  | pha => exact .inl ⟨by simp, .a, rfl⟩
  | phx => exact .inl ⟨by simp, .x, rfl⟩
  | phy => exact .inl ⟨by simp, .y, rfl⟩
  | php => exact .inr ⟨rfl, rfl⟩
  | clc => exact ⟨.c, false, rfl, by simp⟩
  | sec => exact ⟨.c, true, rfl, by simp⟩
  | cli => exact ⟨.i, false, rfl, by simp⟩
  | sei => exact ⟨.i, true, rfl, by simp⟩
  | cld => exact ⟨.d, false, rfl, by simp⟩
  | sed => exact ⟨.d, true, rfl, by simp⟩
  | clv => exact ⟨.v, false, rfl, by simp⟩
  | tax | tay | txa | tya | tsx | inx | dex | iny | dey | pla | plx | ply => simp [shapeOf, Shape.RowOf]
  | txs | rts | brk | rti | plp | nop | stp => rfl
  | undefined _ | wai => trivial

theorem shape_row (i : Instr) : (shape i).RowOf i.mode i.mnemonic := shapeOf_row i.opcode i.mode i.mnemonic

/-! ## The registers an instruction leaves -/

/-- The registers after an instruction of a shape, up to the bytes it read; the fabric and the store are those of before.
A control transfer ends by `jumpTo`, every other instruction by `advance`. -/
inductive Shape.Leaves (i : Instr) (s : State) : Shape → State → Prop where
  | load (r src v k) : Leaves i s (.load r src) (advance src.length (cyclesOf i k) (setNZ v (setReg r v s)))
  | store (v m k) : Leaves i s (.store v m) (advance (modeLength m) (cyclesOf i k) s)
  | transfer (src dst) : Leaves i s (.transfer src dst) (advance 1 i.baseCycles (setNZ (s.reg src) (setReg dst (s.reg src) s)))
  | toStackPointer : Leaves i s .toStackPointer (advance 1 i.baseCycles (setReg .sp s.x s))
  | arith (f src q k) : Leaves i s (.arith f src) (advance src.length (cyclesOf i k + decimalCycle s.p)
      (setStatus (Status.setArith q s.p) (setReg .a q.result s)))
  | logic (f src v k) : Leaves i s (.logic f src) (advance src.length (cyclesOf i k) (setNZ v (setReg .a v s)))
  | bitTest (src v k) : Leaves i s (.bitTest src) (advance src.length (cyclesOf i k)
      (setStatus (Status.bitTest Config.bitFlags src.isImmediate s.a v s.p) s))
  | testAndWrite (f m v k) :
      Leaves i s (.testAndWrite f m) (advance (modeLength m) (cyclesOf i k) (setStatus (Status.testZ s.a v s.p) s))
  | modifyBit (f m k) : Leaves i s (.modifyBit f m) (advance (modeLength m) (cyclesOf i k) s)
  | shiftAcc (f q) :
      Leaves i s (.shiftAcc f) (advance 1 i.baseCycles (setStatus (Status.setShift q s.p) (setReg .a q.result s)))
  | shiftMem (f m q k) :
      Leaves i s (.shiftMem f m) (advance (modeLength m) (cyclesOf i k) (setStatus (Status.setShift q s.p) s))
  | stepReg (r f v) : Leaves i s (.stepReg r f) (advance 1 i.baseCycles (setNZ v (setReg r v s)))
  | stepMem (f m v k) : Leaves i s (.stepMem f m) (advance (modeLength m) (cyclesOf i k) (setNZ v s))
  | compare (r src v k) : Leaves i s (.compare r src) (advance src.length (cyclesOf i k)
      (setStatus (Status.compare (s.reg r) v s.p) s))
  | branch (cond rel8 taken target) : Leaves i s (.branch cond rel8) (branchEnd taken 2 target i.baseCycles s)
  | bitBranch (n want zp8 rel8 taken target) :
      Leaves i s (.bitBranch n want zp8 rel8) (branchEnd taken 3 target i.baseCycles s)
  | jump (m target) : Leaves i s (.jump m) (jumpTo target i.baseCycles s)
  | call (target) : Leaves i s (.call target) (jumpTo target i.baseCycles (setReg .sp (s.sp - 2) s))
  | fromSubroutine (target) : Leaves i s .fromSubroutine (jumpTo target i.baseCycles (setReg .sp (s.sp + 2) s))
  | softBreak (target) : Leaves i s .softBreak (jumpTo target i.baseCycles
      (setStatus { s.p with i := true, d := false } (setReg .sp (s.sp - 3) s)))
  | fromBreak (w target) : Leaves i s .fromBreak (jumpTo target i.baseCycles
      (setStatus (Status.pulled Config.pullB w s.p) (setReg .sp (s.sp + 3) s)))
  | pushByte (v) : Leaves i s (.pushByte v) (advance 1 i.baseCycles (setReg .sp (s.sp - 1) s))
  | pullReg (r v) : Leaves i s (.pullReg r) (advance 1 i.baseCycles (setNZ v (setReg r v (setReg .sp (s.sp + 1) s))))
  | pullStatus (w) : Leaves i s .pullStatus (advance 1 i.baseCycles
      (setStatus (Status.pulled Config.pullB w s.p) (setReg .sp (s.sp + 1) s)))
  | writeStatus (f) : Leaves i s (.writeStatus f) (advance 1 i.baseCycles (setStatus (f s.p) s))
  | noOperation : Leaves i s .noOperation (advance 1 i.baseCycles s)
  | stop : Leaves i s .stop (addCycles i.baseCycles s)

theorem SameButPeripherals.over {s t : State} (h : SameButPeripherals s t) : t = overFabric s t := by
  rw [h.1]; rfl

theorem memWrite_over {a : Addr} {v : Byte} {s t : State} (h : memWrite a v s = .ok t) : t = overFabric s t :=
  (memWrite_frame h).1

theorem readModifyWrite_over {m : AddrMode} {r : Resolved} {v w : Byte} {s s1 s2 s3 : State}
    (h1 : resolve m s = .ok (r, s1)) (h2 : memRead r.ea s1 = .ok (v, s2)) (h3 : memWrite r.ea w s2 = .ok s3) :
    s3 = overFabric s s3 :=
  readModifyWrite_frame h1 h2 h3

/-- Every instruction that answers leaves the registers its shape leaves, over some fabric and store. -/
theorem Shape.run_leaves {i : Instr} {sh : Shape} {s t : State} (h : sh.run i s = .next t) :
    ∃ q u, sh.Leaves i s q ∧ t = overFabric q u := by
  cases sh with
  | load r src =>
    obtain ⟨o, s1, h1, rfl⟩ := load_next.1 h
    exact ⟨_, s1, .load r src o.value o.crossed, by rw [(readSource_ok h1).over]; cases r <;> rfl⟩
  | store v m =>
    obtain ⟨r, s1, s2, h1, h2, rfl⟩ := store_next.1 h
    exact ⟨_, s2, .store v m r.crossed, by rw [memWrite_over h2, (resolve_ok h1).over]; rfl⟩
  | transfer src dst => cases h; exact ⟨_, s, .transfer src dst, by cases dst <;> rfl⟩
  | toStackPointer => cases h; exact ⟨_, s, .toStackPointer, rfl⟩
  | arith f src =>
    obtain ⟨o, s1, h1, rfl⟩ := arith_next.1 h
    exact ⟨_, s1, .arith f src (f s.p s.a o.value) o.crossed, by rw [(readSource_ok h1).over]; rfl⟩
  | logic f src =>
    obtain ⟨o, s1, h1, rfl⟩ := logic_next.1 h
    exact ⟨_, s1, .logic f src (f s.a o.value) o.crossed, by rw [(readSource_ok h1).over]; rfl⟩
  | bitTest src =>
    obtain ⟨o, s1, h1, rfl⟩ := bitTest_next.1 h
    exact ⟨_, s1, .bitTest src o.value o.crossed, by rw [(readSource_ok h1).over]; rfl⟩
  | testAndWrite f m =>
    obtain ⟨r, s1, v, s2, s3, h1, h2, h3, rfl⟩ := testAndWrite_next.1 h
    refine ⟨_, s3, .testAndWrite f m v r.crossed, ?_⟩
    rw [memWrite_over h3, ((resolve_ok h1).trans (memRead_ok h2)).over]
    rfl
  | modifyBit f m =>
    obtain ⟨r, s1, v, s2, s3, h1, h2, h3, rfl⟩ := modifyBit_next.1 h
    exact ⟨_, s3, .modifyBit f m r.crossed, by rw [readModifyWrite_over h1 h2 h3]; rfl⟩
  | shiftAcc f => cases h; exact ⟨_, s, .shiftAcc f (f s.p.c s.a), rfl⟩
  | shiftMem f m =>
    obtain ⟨r, s1, v, s2, s3, h1, h2, h3, rfl⟩ := shiftMem_next.1 h
    exact ⟨_, s3, .shiftMem f m (f s2.p.c v) r.crossed, by rw [readModifyWrite_over h1 h2 h3]; rfl⟩
  | stepReg r f => cases h; exact ⟨_, s, .stepReg r f (f (s.reg r)), by cases r <;> rfl⟩
  | stepMem f m =>
    obtain ⟨r, s1, v, s2, s3, h1, h2, h3, rfl⟩ := stepMem_next.1 h
    exact ⟨_, s3, .stepMem f m (f v) r.crossed, by rw [readModifyWrite_over h1 h2 h3]; rfl⟩
  | compare r src =>
    obtain ⟨o, s1, h1, rfl⟩ := compareReg_next.1 h
    refine ⟨_, s1, .compare r src o.value o.crossed, ?_⟩
    rw [(readSource_ok h1).reg, (readSource_ok h1).over]
    rfl
  | branch cond rel8 =>
    cases h
    exact ⟨_, s, .branch cond rel8 (cond s.p) (relTarget s.cp rel8), by cases hc : cond s.p <;> rfl⟩
  | bitBranch n want zp8 rel8 =>
    obtain ⟨v, s1, h1, rfl⟩ := bitBranch_next.1 h
    refine ⟨_, s1, .bitBranch n want zp8 rel8 (v.getLsbD n == want) (zprelTarget s1.cp rel8), ?_⟩
    rw [(memRead_ok h1).over]
    cases hc : v.getLsbD n == want <;> rfl
  | jump m =>
    obtain ⟨r, s1, h1, rfl⟩ := jump_next.1 h
    exact ⟨_, s1, .jump m r.ea, by rw [(resolve_ok h1).over]; rfl⟩
  | call target =>
    obtain ⟨s1, h1, rfl⟩ := callSubroutine_next.1 h
    exact ⟨_, s1, .call target, by rw [(pushWord_ok h1).1]; rfl⟩
  | fromSubroutine =>
    obtain ⟨w, s1, h1, rfl⟩ := returnFromSubroutine_next.1 h
    obtain ⟨he, -, hm⟩ := pullWord_ok h1
    exact ⟨_, s1, .fromSubroutine (w + 1), by rw [he]; rfl⟩
  | softBreak =>
    obtain ⟨s1, h1, rfl⟩ := breakTrap_next.1 h
    exact ⟨_, s1, .softBreak s1.cp, by rw [(takeBreak_ok h1).1]; rfl⟩
  | fromBreak =>
    obtain ⟨s1, h1, rfl⟩ := returnTrap_next.1 h
    obtain ⟨w, he, -, -⟩ := returnFromBreak_ok h1
    exact ⟨_, s1, .fromBreak w s1.cp, by rw [he]; rfl⟩
  | pushByte v =>
    obtain ⟨s1, h1, rfl⟩ := pushByte_next.1 h
    exact ⟨_, s1, .pushByte v, by rw [(push_frame h1).1]; rfl⟩
  | pullReg r =>
    obtain ⟨v, s1, h1, rfl⟩ := pullReg_next.1 h
    exact ⟨_, s1, .pullReg r v, by rw [(pull_ok h1).1]; cases r <;> rfl⟩
  | pullStatus =>
    obtain ⟨w, s1, h1, rfl⟩ := pullStatus_next.1 h
    exact ⟨_, s1, .pullStatus w, by rw [(pull_ok h1).1]; rfl⟩
  | writeStatus f => cases h; exact ⟨_, s, .writeStatus f, rfl⟩
  | noOperation => cases h; exact ⟨_, s, .noOperation, rfl⟩
  | stop => cases h; exact ⟨_, s, .stop, rfl⟩
  | unknown op => cases h

theorem exec_leaves {i : Instr} {s t : State} (h : exec i s = .next t) :
    ∃ q u, (shape i).Leaves i s q ∧ t = overFabric q u :=
  Shape.run_leaves (exec_eq_shape i s ▸ h)

/-! ## Registers -/

@[simp] theorem reg_setStatus (p : Status) (s : State) (r : Reg) : (setStatus p s).reg r = s.reg r := by cases r <;> rfl
@[simp] theorem reg_setNZ (v : Byte) (s : State) (r : Reg) : (setNZ v s).reg r = s.reg r := by cases r <;> rfl
@[simp] theorem reg_addCycles (n : Nat) (s : State) (r : Reg) : (addCycles n s).reg r = s.reg r := by cases r <;> rfl
@[simp] theorem reg_advance (len n : Nat) (s : State) (r : Reg) : (advance len n s).reg r = s.reg r := by cases r <;> rfl
@[simp] theorem reg_jumpTo (target : Addr) (n : Nat) (s : State) (r : Reg) : (jumpTo target n s).reg r = s.reg r := by
  cases r <;> rfl
@[simp] theorem reg_branchEnd (taken : Bool) (len : Nat) (target : Addr) (n : Nat) (s : State) (r : Reg) :
    (branchEnd taken len target n s).reg r = s.reg r := by cases taken <;> cases r <;> rfl
@[simp] theorem reg_overFabric (q u : State) (r : Reg) : (overFabric q u).reg r = q.reg r := by cases r <;> rfl

/-- The registers a shape writes. -/
def Shape.targets : Shape → List Reg
  | .load r _ => [r]
  | .transfer _ dst => [dst]
  | .toStackPointer => [.sp]
  | .arith _ _ => [.a]
  | .logic _ _ => [.a]
  | .shiftAcc _ => [.a]
  | .stepReg r _ => [r]
  | .call _ => [.sp]
  | .fromSubroutine => [.sp]
  | .softBreak => [.sp]
  | .fromBreak => [.sp]
  | .pushByte _ => [.sp]
  | .pullReg r => [.sp, r]
  | .pullStatus => [.sp]
  | _ => []

theorem Shape.Leaves.reg {i : Instr} {sh : Shape} {s q : State} (h : sh.Leaves i s q) {r : Reg} (hr : r ∉ sh.targets) :
    q.reg r = s.reg r := by
  cases h <;> simp_all [Shape.targets, eq_comm]

/-- An instruction changes no register but those its shape writes. -/
theorem exec_reg {i : Instr} {s t : State} {r : Reg} (h : exec i s = .next t) (hr : r ∉ (shape i).targets) :
    t.reg r = s.reg r := by
  obtain ⟨q, u, hq, rfl⟩ := exec_leaves h
  rw [reg_overFabric, hq.reg hr]

/-- A shift or a step without an address has the accumulator. -/
theorem mode_acc {i : Instr} (hmn : i.mnemonic ∈ [.asl, .lsr, .rol, .ror, .inc, .dec]) (h : modeAddress i.mode = none) :
    i.mode = .acc := by
  have htag := row_of_map (P := fun mn tag _ => mn ∈ [Mnemonic.asl, .lsr, .rol, .ror, .inc, .dec] →
    tag ∉ [ModeTag.imp, .imm, .rel, .zprel, .illegal]) (by decide) i hmn
  cases hm : i.mode with
  | acc => rfl
  | mem m => rw [hm] at h; cases h
  | imp | imm | rel | zprel | illegal => rw [hm] at htag; exact absurd (by simp [Mode.tag]) htag

theorem Shape.RowOf.target_a {sh : Shape} {mode : Mode} {mn : Mnemonic} (h : sh.RowOf mode mn) (ht : .a ∈ sh.targets) :
    mn ∈ [.lda, .pla, .adc, .sbc, .and, .ora, .eor, .txa, .tya] ∨
      mn ∈ [.asl, .lsr, .rol, .ror, .inc, .dec] ∧ modeAddress mode = none := by
  cases sh <;> simp only [Shape.targets, Shape.RowOf, List.mem_cons, List.not_mem_nil, or_false, reduceCtorEq] at h ht ⊢ <;>
    grind

theorem Shape.RowOf.target_x {sh : Shape} {mode : Mode} {mn : Mnemonic} (h : sh.RowOf mode mn) (ht : .x ∈ sh.targets) :
    mn ∈ [.ldx, .plx, .inx, .dex, .tax, .tsx] := by
  cases sh <;> simp only [Shape.targets, Shape.RowOf, List.mem_cons, List.not_mem_nil, or_false, reduceCtorEq] at h ht ⊢ <;>
    grind

theorem Shape.RowOf.target_y {sh : Shape} {mode : Mode} {mn : Mnemonic} (h : sh.RowOf mode mn) (ht : .y ∈ sh.targets) :
    mn ∈ [.ldy, .ply, .iny, .dey, .tay] := by
  cases sh <;> simp only [Shape.targets, Shape.RowOf, List.mem_cons, List.not_mem_nil, or_false, reduceCtorEq] at h ht ⊢ <;>
    grind

theorem Shape.RowOf.target_sp {sh : Shape} {mode : Mode} {mn : Mnemonic} (h : sh.RowOf mode mn) (ht : .sp ∈ sh.targets) :
    mn ∈ [.pha, .phx, .phy, .php, .pla, .plx, .ply, .plp, .jsr, .rts, .rti, .brk, .txs] := by
  cases sh <;> simp only [Shape.targets, Shape.RowOf, List.mem_cons, List.not_mem_nil, or_false, reduceCtorEq] at h ht ⊢ <;>
    grind

/-- Settles O46. -/
theorem registerFrame : Obligations.RegisterFrame := by
  intro i s t h
  have hrow := shape_row i
  refine ⟨fun hmn hacc => exec_reg (r := .a) h fun ht => ?_, fun hmn => exec_reg (r := .x) h fun ht => hmn (hrow.target_x ht),
    fun hmn => exec_reg (r := .y) h fun ht => hmn (hrow.target_y ht), fun hmn => exec_reg (r := .sp) h fun ht => hmn (hrow.target_sp ht)⟩
  rcases hrow.target_a ht with hm | ⟨hm, hno⟩
  · exact hmn hm
  · exact hacc (mode_acc hm hno)

/-! ## Flags -/

/-- The flags a shape writes. -/
def Shape.WritesFlag (k : Flag) : Shape → Prop
  | .load _ _ => k ∈ [Flag.n, .z]
  | .transfer _ _ => k ∈ [Flag.n, .z]
  | .arith _ _ => k ∈ [Flag.n, .v, .z, .c]
  | .logic _ _ => k ∈ [Flag.n, .z]
  | .bitTest src => k = .z ∨ src.isImmediate = false ∧ k ∈ [Flag.n, .v]
  | .testAndWrite _ _ => k = .z
  | .shiftAcc _ => k ∈ [Flag.n, .z, .c]
  | .shiftMem _ _ => k ∈ [Flag.n, .z, .c]
  | .stepReg _ _ => k ∈ [Flag.n, .z]
  | .stepMem _ _ => k ∈ [Flag.n, .z]
  | .compare _ _ => k ∈ [Flag.n, .z, .c]
  | .softBreak => k ∈ [Flag.d, .i]
  | .fromBreak => k ∈ [Flag.n, .v, .d, .i, .z, .c]
  | .pullReg _ => k ∈ [Flag.n, .z]
  | .pullStatus => k ∈ [Flag.n, .v, .d, .i, .z, .c]
  | .writeStatus f => ∃ p, (f p).flag k ≠ p.flag k
  | _ => False

theorem branchEnd_p (taken : Bool) (len : Nat) (target : Addr) (n : Nat) (s : State) :
    (branchEnd taken len target n s).p = s.p := by
  cases taken <;> rfl

theorem Shape.Leaves.flag {i : Instr} {sh : Shape} {s q : State} (h : sh.Leaves i s q) {k : Flag} (hk : ¬sh.WritesFlag k) :
    q.p.flag k = s.p.flag k := by
  cases h with
  | load r src v c => simpa using Status.flag_setNZ hk v s.p
  | transfer src dst => simpa using Status.flag_setNZ hk (s.reg src) s.p
  | logic f src v c => exact Status.flag_setNZ hk v s.p
  | stepReg r f v => simpa using Status.flag_setNZ hk v s.p
  | stepMem f m v c => exact Status.flag_setNZ hk v s.p
  | pullReg r v => simpa using Status.flag_setNZ hk v s.p
  | arith f src q c => exact Status.flag_setArith hk q s.p
  | bitTest src v c =>
    obtain ⟨hz, himm⟩ := not_or.1 hk
    refine Status.flag_bitTest hz ?_ s.a v s.p
    cases hi : src.isImmediate with
    | true => exact .inl rfl
    | false => exact .inr fun hnv => himm ⟨hi, hnv⟩
  | testAndWrite f m v c => exact Status.flag_testZ hk s.a v s.p
  | shiftAcc f q => exact Status.flag_setShift hk q s.p
  | shiftMem f m q c => exact Status.flag_setShift hk q s.p
  | compare r src v c => exact Status.flag_compare hk (s.reg r) v s.p
  | softBreak target => exact Status.flag_break hk s.p
  | fromBreak w target => exact Status.flag_pulled hk w s.p
  | pullStatus w => exact Status.flag_pulled hk w s.p
  | writeStatus f => exact Classical.not_not.1 fun hne => hk ⟨s.p, hne⟩
  | branch cond rel8 taken target => rw [branchEnd_p]
  | bitBranch n want zp8 rel8 taken target => rw [branchEnd_p]
  | store | toStackPointer | modifyBit | jump | call | fromSubroutine | pushByte | noOperation | stop => rfl

/-- An instruction changes no flag but those its shape writes. -/
theorem exec_flag {i : Instr} {s t : State} {k : Flag} (h : exec i s = .next t) (hk : ¬(shape i).WritesFlag k) :
    t.p.flag k = s.p.flag k := by
  obtain ⟨q, u, hq, rfl⟩ := exec_leaves h
  exact hq.flag hk

/-- A flag instruction writes its own flag alone. -/
theorem eq_of_set_flag {k l : Flag} {x : Bool} (h : ∃ p : Status, (p.set k x).flag l ≠ p.flag l) : l = k := by
  obtain ⟨p, hp⟩ := h
  exact Classical.not_not.1 fun hne => hp (Status.flag_set_ne hne x p)

/-- The mnemonics that write N and Z from a result (R14). -/
def resultMnemonics : List Mnemonic :=
  [.lda, .ldx, .ldy, .tax, .tay, .txa, .tya, .tsx, .pla, .plx, .ply, .adc, .sbc, .and, .ora, .eor, .asl, .lsr, .rol,
   .ror, .inc, .dec, .inx, .iny, .dex, .dey, .cmp, .cpx, .cpy, .plp, .rti]

/-- The flag table of R14 and R16: the mnemonics that write a flag. -/
def FlagRow (mode : Mode) (mn : Mnemonic) : Flag → Prop
  | .n => mn ∈ resultMnemonics ∨ mn = .bit ∧ mode.tag ≠ .imm
  | .z => mn ∈ resultMnemonics ∨ mn ∈ [.bit, .tsb, .trb]
  | .v => mn ∈ [.adc, .sbc, .clv, .plp, .rti] ∨ mn = .bit ∧ mode.tag ≠ .imm
  | .d => mn ∈ [.sed, .cld, .brk, .plp, .rti]
  | .i => mn ∈ [.sei, .cli, .brk, .plp, .rti]
  | .c => mn ∈ [.adc, .sbc, .asl, .lsr, .rol, .ror, .cmp, .cpx, .cpy, .sec, .clc, .plp, .rti]
  | .b => False

/-- A memory operand is not the immediate one. -/
theorem tag_ne_imm {mode : Mode} {src : Source} (h : modeSource mode = some src) (hi : src.isImmediate = false) :
    mode.tag ≠ .imm := by
  rcases mode_of_modeSource h with ⟨v, -, rfl⟩ | ⟨m, rfl, -⟩
  · cases hi
  · cases m <;> simp [Mode.tag, AddrMode.tag]

theorem Shape.RowOf.flag {sh : Shape} {mode : Mode} {mn : Mnemonic} {k : Flag} (h : sh.RowOf mode mn)
    (hk : sh.WritesFlag k) : FlagRow mode mn k := by
  cases sh with
  | writeStatus f =>
    obtain ⟨l, x, rfl, hl⟩ := h
    obtain rfl := eq_of_set_flag hk
    rcases hl with ⟨hm, rfl⟩ | ⟨hm, rfl⟩ | ⟨hm, rfl⟩ | ⟨hm, rfl⟩ <;>
      simp only [FlagRow, List.mem_cons, List.not_mem_nil, or_false] at hm ⊢ <;> grind
  | bitTest src =>
    obtain ⟨rfl, hs⟩ := h
    rcases hk with rfl | ⟨hi, hk⟩
    · exact .inr (by simp)
    · have hmem : mode.tag ≠ .imm := tag_ne_imm hs hi
      cases k <;> simp_all [FlagRow]
  | _ =>
    cases k <;>
      simp only [Shape.WritesFlag, Shape.RowOf, FlagRow, resultMnemonics, List.mem_cons, List.not_mem_nil, or_false,
        reduceCtorEq] at h hk ⊢ <;>
      grind

/-- An instruction changes no flag but those of its row. -/
theorem exec_flagRow {i : Instr} {s t : State} (h : exec i s = .next t) (k : Flag) (hk : ¬FlagRow i.mode i.mnemonic k) :
    t.p.flag k = s.p.flag k :=
  exec_flag h fun hw => hk ((shape_row i).flag hw)

/-- Settles O47. -/
theorem flagFrame : Obligations.FlagFrame := by
  intro i s t h results
  refine ⟨fun hm hb => exec_flagRow h .n ?_, fun hm hb => exec_flagRow h .z ?_, fun hm hb => exec_flagRow h .v ?_,
    exec_flagRow h .d, exec_flagRow h .i, exec_flagRow h .c, exec_flagRow h .b id⟩
  · rintro (hr | ⟨hbit, hne⟩)
    · exact hm hr
    · exact hb.elim (fun hne' => hne' hbit) hne
  · exact not_or.2 ⟨hm, hb⟩
  · rintro (hr | ⟨hbit, hne⟩)
    · exact hm hr
    · exact hb.elim (fun hne' => hne' hbit) hne

end Sys2Proof.Machine

/-! # Proofs: cycles and progress (R17, R112, R371) -/

namespace Sys2Proof.Machine

/-! ## Cycles -/

theorem assigned_of_next {i : Instr} {s t : State} (h : exec i s = .next t) : i.assigned = true := by
  cases ha : i.assigned with
  | true => rfl
  | false =>
    rw [exec_eq_shape, shape_of_not_assigned ha] at h
    cases h

/-- The base cycle counts of R66 (decision D5). -/
theorem baseCycles_ge {i : Instr} (h : i.assigned = true) : 2 ≤ i.baseCycles := by
  have hmap : ∀ op : Byte, (decodeOp op 0 0).assigned = true → 2 ≤ (decodeOp op 0 0).baseCycles := by decide
  obtain ⟨-, -, -, hcyc, -, has⟩ := decodeOp_opcode i 0 0
  exact hcyc ▸ hmap i.opcode (has.trans h)

/-- The cycles of an instruction, from the row of R66 (R110, R112). -/
theorem cyclesOf_le_row (i : Instr) (k : Bool) :
    cyclesOf i k ≤ i.baseCycles + if (i.mnemonic, i.mode.tag) ∈ Config.pagePenaltySet then 1 else 0 := by
  rw [cyclesOf, paysPageCycle, pageCycle]
  split <;> split <;> simp_all

theorem cyclesOf_le (i : Instr) (k : Bool) : cyclesOf i k ≤ 7 :=
  Nat.le_trans (cyclesOf_le_row i k) <| row_of_map
    (P := fun mn tag cycles => cycles + (if (mn, tag) ∈ Config.pagePenaltySet then 1 else 0) ≤ 7) (by decide) i

/-- An addition or subtraction takes at most 6 before its decimal cycle. -/
theorem cyclesOf_arith_le {i : Instr} (hm : i.mnemonic ∈ [.adc, .sbc]) (k : Bool) : cyclesOf i k ≤ 6 :=
  Nat.le_trans (cyclesOf_le_row i k) <| row_of_map (P := fun mn tag cycles => mn ∈ [Mnemonic.adc, .sbc] →
    cycles + (if (mn, tag) ∈ Config.pagePenaltySet then 1 else 0) ≤ 6) (by decide) i hm

theorem cyclesOf_ge {i : Instr} (h : i.assigned = true) (k : Bool) : 2 ≤ cyclesOf i k :=
  Nat.le_trans (baseCycles_ge h) (Nat.le_add_right _ _)

theorem baseCycles_le (i : Instr) : i.baseCycles ≤ 7 := Nat.le_trans (Nat.le_add_right _ _) (cyclesOf_le i false)

theorem baseCycles_branch_le {i : Instr} (hm : i.mnemonic ∈ [.bpl, .bmi, .bvc, .bvs, .bcc, .bcs, .bne, .beq, .bra]) :
    i.baseCycles ≤ 5 :=
  row_of_map (P := fun mn _ cycles => mn ∈ [Mnemonic.bpl, .bmi, .bvc, .bvs, .bcc, .bcs, .bne, .beq, .bra] → cycles ≤ 5)
    (by decide) i hm

/-- The cycle count after `n` more cycles, between 2 and 7 of them. -/
def CyclesBetween (s q : State) : Prop := ∃ n : Nat, 2 ≤ n ∧ n ≤ 7 ∧ q.cycleCount = s.cycleCount + BitVec.ofNat 64 n

/-- A branch adds at most two cycles to its base count (R111). -/
theorem cyclesBetween_branchEnd {base : Nat} (h2 : 2 ≤ base) (h5 : base ≤ 5) (taken : Bool) (len : Nat) (target : Addr)
    (s : State) : CyclesBetween s (branchEnd taken len target base s) := by
  rw [branchEnd_eq]
  refine ⟨base + if taken then (if s.cp.toNat / 256 = target.toNat / 256 then 1 else 2) else 0, ?_, ?_, rfl⟩
  · omega
  · split
    · split <;> omega
    · omega

theorem Shape.Leaves.cycles {i : Instr} {sh : Shape} {s q : State} (h : sh.Leaves i s q) (ha : i.assigned = true)
    (hrow : sh.RowOf i.mode i.mnemonic) : CyclesBetween s q := by
  have hbase := baseCycles_ge ha
  cases h with
  | arith f src r k =>
    obtain ⟨hm, -⟩ := hrow
    have hmn : i.mnemonic ∈ [.adc, .sbc] := by rcases hm with ⟨hm, -⟩ | ⟨hm, -⟩ <;> simp [hm]
    have hge := cyclesOf_ge ha k
    have hle := cyclesOf_arith_le hmn k
    refine ⟨cyclesOf i k + decimalCycle s.p, by omega, ?_, rfl⟩
    rw [decimalCycle]
    split <;> omega
  | branch cond rel8 taken target => exact cyclesBetween_branchEnd hbase (baseCycles_branch_le hrow.1) taken 2 target s
  | bitBranch n want zp8 rel8 taken target =>
    have h5 : i.baseCycles = 5 := baseCycles_of_zprel i (by rw [hrow.2]; rfl)
    exact cyclesBetween_branchEnd hbase (Nat.le_of_eq h5) taken 3 target s
  | load r src v k => exact ⟨cyclesOf i k, cyclesOf_ge ha k, cyclesOf_le i k, by simp⟩
  | store _ _ k | logic _ _ _ k | bitTest _ _ k | testAndWrite _ _ _ k | modifyBit _ _ k | shiftMem _ _ _ k
  | stepMem _ _ _ k | compare _ _ _ k =>
    exact ⟨cyclesOf i k, cyclesOf_ge ha k, cyclesOf_le i k, rfl⟩
  | transfer | toStackPointer | shiftAcc | stepReg | jump | call | fromSubroutine | softBreak | fromBreak | pushByte
  | pullReg | pullStatus | writeStatus | noOperation | stop =>
    exact ⟨i.baseCycles, hbase, baseCycles_le i, by simp⟩

theorem exec_cycles {i : Instr} {s t : State} (h : exec i s = .next t) : CyclesBetween s t := by
  obtain ⟨q, u, hq, rfl⟩ := exec_leaves h
  exact hq.cycles (assigned_of_next h) (shape_row i)

/-- Settles O53. -/
theorem cycleCountGrowsByTwoToSeven : Obligations.CycleCountGrowsByTwoToSeven := by
  intro s t h
  obtain ⟨i, s1, hf, he⟩ := step_next.1 h
  obtain ⟨n, h2, h7, hn⟩ := exec_cycles he
  rw [(fetch_ok hf).1.cycleCount] at hn
  refine ⟨n, h2, h7, hn, fun hlt => ?_⟩
  rw [hn, BitVec.toNat_add, BitVec.toNat_ofNat]
  omega

/-! ## Progress -/

/-- One to three bytes on is another address. -/
theorem offsetAddr_ne {a : Addr} {k : Nat} (h1 : 1 ≤ k) (h3 : k ≤ 3) : offsetAddr a k ≠ a := fun he => by
  have h := congrArg BitVec.toNat he
  rw [offsetAddr_toNat] at h
  have := a.isLt
  omega

theorem modeLength_bounds (m : AddrMode) : 1 ≤ modeLength m ∧ modeLength m ≤ 3 := by
  cases m <;> simp [modeLength, AddrMode.tag, ModeTag.length]

theorem Source.length_bounds (src : Source) : 1 ≤ src.length ∧ src.length ≤ 3 := by
  cases src with
  | imm v => exact ⟨by simp [Source.length], by simp [Source.length]⟩
  | mem m => exact modeLength_bounds m

/-- The control transfers and STP. -/
def ControlMnemonic (mn : Mnemonic) : Prop :=
  mn ∈ [.stp, .jmp, .jsr, .rts, .rti, .brk, .bpl, .bmi, .bvc, .bvs, .bcc, .bcs, .bne, .beq, .bra] ∨
    ∃ n, mn = .bbr n ∨ mn = .bbs n

/-- Where CP stands still, the instruction is STP or a control transfer: every other one moves it on by its length. -/
theorem Shape.Leaves.control {i : Instr} {sh : Shape} {s q : State} (h : sh.Leaves i s q)
    (hrow : sh.RowOf i.mode i.mnemonic) (hcp : q.cp = s.cp) : ControlMnemonic i.mnemonic := by
  cases h with
  | jump => exact .inl (by simp [hrow.1])
  | call | fromSubroutine | softBreak | fromBreak | stop => exact .inl (by simp [show i.mnemonic = _ from hrow])
  | branch => exact .inl (List.mem_append_right [Mnemonic.stp, .jmp, .jsr, .rts, .rti, .brk] hrow.1)
  | bitBranch => exact .inr hrow.1
  | load _ src | logic _ src | arith _ src | bitTest src | compare _ src =>
    obtain ⟨h1, h3⟩ := src.length_bounds
    exact absurd (by simpa using hcp) (offsetAddr_ne h1 h3)
  | store _ m | testAndWrite _ m | modifyBit _ m | shiftMem _ m | stepMem _ m =>
    obtain ⟨h1, h3⟩ := modeLength_bounds m
    exact absurd (by simpa using hcp) (offsetAddr_ne h1 h3)
  | transfer | toStackPointer | shiftAcc | stepReg | pushByte | pullReg | pullStatus | writeStatus | noOperation =>
    exact absurd (by simpa using hcp) (offsetAddr_ne (k := 1) (by decide) (by decide))

/-- BRA to itself: taken, in its own page (R106, R258). -/
theorem exec_bra_self (s : State) : exec (.bra 0xFE) s = .next { s with cycleCount := s.cycleCount + 3 } := by
  have htarget : relTarget s.cp 0xFE = s.cp := by
    rw [relTarget, BitVec.add_assoc, show (2 : Addr) + sext16 0xFE = 0#16 by decide, BitVec.add_zero]
  show branch true 0xFE 2 s = _
  rw [branch, htarget, branchEnd_eq]
  simp

theorem terminal_iff {i : Instr} {before after : Addr} :
    terminalFlag Config.terminalRule i before after = true ↔ i = .stp ∨ after = before := by
  rw [← isStp_iff]
  simp [terminalFlag, Config.terminalRule]

/-- The cycles of an outcome are those added (R112, R370). -/
theorem add_consumedCycles (s t : State) : s.cycleCount + BitVec.ofNat 64 (consumedCycles s t) = t.cycleCount := by
  rw [consumedCycles, BitVec.ofNat_toNat, BitVec.setWidth_eq, BitVec.add_comm, BitVec.sub_add_cancel]

/-- Settles O54. -/
theorem terminalFlagOnlyWithoutProgress : Obligations.TerminalFlagOnlyWithoutProgress := by
  refine ⟨fun i s t h hcp => ?_, fun s => ⟨rfl, exec_bra_self s⟩, fun s t o h => ?_⟩
  · obtain ⟨q, u, hq, rfl⟩ := exec_leaves h
    exact hq.control (shape_row i) hcp
  · obtain ⟨i, s1, hf, he, rfl⟩ := report_success.1 h
    exact ⟨step_next.2 ⟨i, s1, hf, he⟩, rfl, terminal_iff, (add_consumedCycles s t).symm⟩

end Sys2Proof.Machine

/-! # Proofs: stored bytes, completion, errors (R108, R351, R400) -/

namespace Sys2Proof.Machine

/-! ## The errors of an instruction -/

/-- The shapes a read's error can end: those with an operand in memory, a pointer or a pull. -/
def Shape.Reads : Shape → Prop
  | .load _ src => ∃ m, src = .mem m
  | .arith _ src => ∃ m, src = .mem m
  | .logic _ src => ∃ m, src = .mem m
  | .bitTest src => ∃ m, src = .mem m
  | .compare _ src => ∃ m, src = .mem m
  | .jump m => m.tag ≠ .abs
  | .bitBranch _ _ _ _ => True
  | .fromSubroutine => True
  | .fromBreak => True
  | .pullReg _ => True
  | .pullStatus => True
  | _ => False

/-- The shapes that write memory. -/
def Shape.Writes : Shape → Prop
  | .store _ _ => True
  | .testAndWrite _ _ => True
  | .modifyBit _ _ => True
  | .shiftMem _ _ => True
  | .stepMem _ _ => True
  | .call _ => True
  | .softBreak => True
  | .pushByte _ => True
  | _ => False

/-- An access and an end that cannot fail: the error is the access's. -/
theorem accessThen_fault {α : Type} {r : Access α} {f : α → State → State} {e : Fault}
    (h : toResult (withAnswer r fun v s => .ok (f v s)) = .fault e) : r = .error e := by
  rcases withAnswer_eq_error.1 (toResult_eq_fault.1 h) with h | ⟨_, _, -, h⟩
  · exact h
  · cases h

theorem stateThen_fault {r : Except Fault State} {f : State → State} {e : Fault}
    (h : toResult (withState r fun s => .ok (f s)) = .fault e) : r = .error e := by
  rcases withState_eq_error.1 (toResult_eq_fault.1 h) with h | ⟨_, -, h⟩
  · exact h
  · cases h

/-- The immediate operand is no access. -/
theorem readSource_fault {src : Source} {s : State} {e : Fault} (h : readSource src s = .error e) :
    (∃ m, src = .mem m) ∧ ReadError s e := by
  refine ⟨?_, readSource_error h⟩
  cases src with
  | imm v => cases h
  | mem m => exact ⟨m, rfl⟩

theorem store_fault {v : Byte} {m : AddrMode} {c : Bool → Nat} {s : State} {e : Fault} (h : store v m c s = .fault e) :
    WriteError s e := by
  rcases withAnswer_eq_error.1 (toResult_eq_fault.1 h) with h | ⟨r, s1, h1, h⟩
  · exact .read (resolve_error h)
  · exact (memWrite_error (stateThen_fault (toResult_eq_fault.2 h))).congr (resolve_ok h1).2

/-- The three accesses of a read-modify-write form: the error of the first that fails. -/
theorem readModifyWrite_fault {m : AddrMode} {w : Byte → State → Byte} {g : Byte → State → State}
    {k : Resolved → Byte → State → State → State} {s : State} {e : Fault} (hg : ∀ v u, fabricMap (g v u) = fabricMap u)
    (h : toResult (withAnswer (resolve m s) fun r s1 => withAnswer (memRead r.ea s1) fun v s2 =>
      withState (memWrite r.ea (w v s2) (g v s2)) fun s3 => .ok (k r v s2 s3)) = .fault e) : WriteError s e := by
  rcases withAnswer_eq_error.1 (toResult_eq_fault.1 h) with h | ⟨r, s1, h1, h⟩
  · exact .read (resolve_error h)
  have m1 := (resolve_ok h1).2
  rcases withAnswer_eq_error.1 h with h | ⟨v, s2, h2, h⟩
  · exact .read ((memRead_error h).congr m1)
  · have m2 := (memRead_ok h2).2.trans m1
    exact (memWrite_error (stateThen_fault (toResult_eq_fault.2 h))).congr ((hg v s2).trans m2)

/-- An instruction ends with an error of a read, of a write, or with `UnknownOpcode` if it is none (R351). -/
theorem Shape.run_fault {i : Instr} {sh : Shape} {s : State} {e : Fault} (h : sh.run i s = .fault e) :
    sh.Reads ∧ ReadError s e ∨ sh.Writes ∧ WriteError s e ∨ ∃ op, sh = .unknown op ∧ e = .unknownOpcode op s.cp := by
  cases sh with
  | load r src => exact .inl (readSource_fault (accessThen_fault h))
  | arith f src => exact .inl (readSource_fault (accessThen_fault h))
  | logic f src => exact .inl (readSource_fault (accessThen_fault h))
  | bitTest src => exact .inl (readSource_fault (accessThen_fault h))
  | compare r src => exact .inl (readSource_fault (accessThen_fault h))
  | jump m =>
    have hr := accessThen_fault h
    refine .inl ⟨fun htag => ?_, resolve_error hr⟩
    cases m <;> cases htag
    cases hr
  | bitBranch n want zp8 rel8 => exact .inl ⟨trivial, memRead_error (accessThen_fault h)⟩
  | fromSubroutine => exact .inl ⟨trivial, pullWord_error (accessThen_fault h)⟩
  | fromBreak => exact .inl ⟨trivial, returnFromBreak_error (stateThen_fault h)⟩
  | pullReg r => exact .inl ⟨trivial, pull_error (accessThen_fault h)⟩
  | pullStatus => exact .inl ⟨trivial, pull_error (accessThen_fault h)⟩
  | store v m => exact .inr (.inl ⟨trivial, store_fault h⟩)
  | testAndWrite f m =>
    exact .inr (.inl ⟨trivial, readModifyWrite_fault (g := fun v u => setStatus (Status.testZ u.a v u.p) u) (fun _ _ => rfl) h⟩)
  | modifyBit f m => exact .inr (.inl ⟨trivial, readModifyWrite_fault (g := fun _ u => u) (fun _ _ => rfl) h⟩)
  | shiftMem f m => exact .inr (.inl ⟨trivial, readModifyWrite_fault (g := fun _ u => u) (fun _ _ => rfl) h⟩)
  | stepMem f m => exact .inr (.inl ⟨trivial, readModifyWrite_fault (g := fun _ u => u) (fun _ _ => rfl) h⟩)
  | call target => exact .inr (.inl ⟨trivial, pushWord_error (stateThen_fault h)⟩)
  | softBreak => exact .inr (.inl ⟨trivial, takeBreak_error (stateThen_fault h)⟩)
  | pushByte v => exact .inr (.inl ⟨trivial, push_error (stateThen_fault h)⟩)
  | unknown op => cases h; exact .inr (.inr ⟨op, rfl, rfl⟩)
  | transfer | toStackPointer | shiftAcc | stepReg | branch | writeStatus | noOperation | stop => cases h

/-- No instruction refuses. -/
theorem exec_ne_refused (i : Instr) (s : State) (r : Refusal) : exec i s ≠ .refused r := by
  rw [exec_eq_shape]
  cases shape i with
  | transfer | toStackPointer | shiftAcc | stepReg | branch | writeStatus | noOperation | stop | unknown => nofun
  | _ => exact toResult_ne_refused

theorem exec_fault {i : Instr} {s : State} {e : Fault} (h : exec i s = .fault e) :
    (shape i).Reads ∧ ReadError s e ∨ (shape i).Writes ∧ WriteError s e ∨
      ∃ op, shape i = .unknown op ∧ e = .unknownOpcode op s.cp :=
  Shape.run_fault (exec_eq_shape i s ▸ h)

theorem not_assigned_of_shape {i : Instr} {op : Byte} (h : shape i = .unknown op) : i.assigned = false := by
  cases i <;> cases h <;> rfl

/-! ## The mnemonics that read and write -/

/-- The instructions that store a byte at the address of their operand. -/
def StoringMnemonic (mn : Mnemonic) : Prop :=
  mn ∈ [.sta, .stx, .sty, .stz, .asl, .lsr, .rol, .ror, .inc, .dec, .tsb, .trb] ∨ ∃ n, mn = .rmb n ∨ mn = .smb n

theorem StoringMnemonic.not_push {mn : Mnemonic} (h : StoringMnemonic mn) :
    mn ∉ [.pha, .phx, .phy, .php, .jsr, .brk] ∧ mn ≠ .jmp := by
  have hlist : ∀ mn ∈ [Mnemonic.sta, .stx, .sty, .stz, .asl, .lsr, .rol, .ror, .inc, .dec, .tsb, .trb],
      mn ∉ [.pha, .phx, .phy, .php, .jsr, .brk] ∧ mn ≠ .jmp := by decide
  rcases h with h | ⟨n, rfl | rfl⟩
  · exact hlist mn h
  · simp
  · simp

theorem Shape.RowOf.writes {sh : Shape} {mode : Mode} {mn : Mnemonic} (h : sh.RowOf mode mn) (hw : sh.Writes) :
    mn ∈ [.pha, .phx, .phy, .php, .jsr, .brk] ∨ StoringMnemonic mn ∧ ∃ m, mode = .mem m := by
  cases sh with
  | store | testAndWrite | shiftMem | stepMem =>
    obtain ⟨hm, hmode⟩ := h
    refine .inr ⟨.inl ?_, _, mode_of_modeAddress hmode⟩
    simp only [List.mem_cons, List.not_mem_nil, or_false] at hm ⊢
    grind
  | modifyBit => exact .inr ⟨.inr h.1, _, mode_of_modeAddress h.2⟩
  | call | softBreak => exact .inl (by simp [show mn = _ from h])
  | pushByte v =>
    simp only [RowOf, List.mem_cons, List.not_mem_nil, or_false] at h ⊢
    grind
  | _ => exact hw.elim

/-- A source in memory is the mode's address. -/
theorem mode_of_source_mem {mode : Mode} {src : Source} (h : modeSource mode = some src) (hm : ∃ m, src = .mem m) :
    ∃ m, mode = .mem m := by
  obtain ⟨m, rfl⟩ := hm
  rcases mode_of_modeSource h with ⟨_, -, hv⟩ | ⟨m', hmode, -⟩
  · cases hv
  · exact ⟨m', hmode⟩

theorem Shape.RowOf.reads {sh : Shape} {mode : Mode} {mn : Mnemonic} (h : sh.RowOf mode mn) (hr : sh.Reads) :
    mn ∈ [.pla, .plx, .ply, .plp, .rts, .rti] ∨ (∃ m, mode = .mem m ∧ (mn = .jmp → m.tag ≠ .abs)) ∨
      ∃ zp8 rel8, mode = .zprel zp8 rel8 := by
  cases sh with
  | load | arith | logic | bitTest | compare =>
    obtain ⟨hmn, hs⟩ := h
    obtain ⟨m, hm⟩ := mode_of_source_mem hs hr
    refine .inr (.inl ⟨m, hm, fun hj => absurd hmn ?_⟩)
    simp [hj]
  | jump m => exact .inr (.inl ⟨m, mode_of_modeAddress h.2, fun _ => hr⟩)
  | bitBranch _ _ zp8 rel8 => exact .inr (.inr ⟨zp8, rel8, h.2⟩)
  | fromSubroutine | fromBreak | pullStatus => exact .inl (by simp [show mn = _ from h])
  | pullReg r =>
    simp only [RowOf, List.mem_cons, List.not_mem_nil, or_false] at h ⊢
    grind
  | _ => exact hr.elim

/-! ## Completion -/

/-- With every address in RAM no access fails. -/
theorem WriteError.not_of_allRam {s : State} {e : Fault} (h : AllRam s) : ¬WriteError s e := by
  rintro (@⟨_, @⟨a, hu⟩ | @⟨a, k, hp⟩⟩ | @⟨a, hr⟩)
  · exact absurd hu (mapped_of_ram (h a))
  · obtain ⟨r, hl, hk⟩ := Option.map_eq_some_iff.1 (h a)
    rw [IsPeripheral, hl, Option.map_some, Region.stores, hk] at hp
    cases hp
  · rw [IsRom, show _ = _ from h a] at hr
    cases hr

/-- A storing mnemonic always stores, or has an accumulator form. -/
theorem storing_cases : ∀ mn ∈ [Mnemonic.sta, .stx, .sty, .stz, .asl, .lsr, .rol, .ror, .inc, .dec, .tsb, .trb],
    mn ∈ [.sta, .stx, .sty, .stz, .tsb, .trb] ∨ mn ∈ [.asl, .lsr, .rol, .ror, .inc, .dec] := by decide

/-- Settles O49. -/
theorem everyAssignedInstructionCompletes : Obligations.EveryAssignedInstructionCompletes := by
  intro i s hwf
  have hunknown : ∀ op, shape i ≠ .unknown op := fun op h => by
    rw [WellFormed, not_assigned_of_shape h] at hwf; cases hwf
  have answers : (∃ t, exec i s = .next t) ∨ ∃ e, exec i s = .fault e ∧
      ((shape i).Reads ∧ ReadError s e ∨ (shape i).Writes ∧ WriteError s e) := by
    cases h : exec i s with
    | next t => exact .inl ⟨t, rfl⟩
    | refused r => exact absurd h (exec_ne_refused i s r)
    | fault e =>
      refine .inr ⟨e, rfl, ?_⟩
      rcases exec_fault h with hr | hw | ⟨op, hop, -⟩
      · exact .inl hr
      · exact .inr hw
      · exact absurd hop (hunknown op)
  refine ⟨fun hram => ?_, fun hcov hlist hacc hbit => ?_⟩
  · rcases answers with ht | ⟨e, -, ⟨-, he⟩ | ⟨-, he⟩⟩
    · exact ht
    · exact absurd (.read he) (WriteError.not_of_allRam hram)
    · exact absurd he (WriteError.not_of_allRam hram)
  · have hnw : ¬(shape i).Writes := fun hw => by
      rcases (shape_row i).writes hw with hm | ⟨hm | ⟨n, hm⟩, m, hmode⟩
      · exact hlist (List.mem_append_right [Mnemonic.sta, .stx, .sty, .stz, .tsb, .trb] hm)
      · rcases storing_cases i.mnemonic hm with hm | hm
        · exact hlist (List.mem_append_left [Mnemonic.pha, .phx, .phy, .php, .jsr, .brk] hm)
        · rw [hacc hm] at hmode
          cases hmode
      · exact hm.elim (hbit n).1 (hbit n).2
    rcases answers with ht | ⟨e, hexec, ⟨-, he⟩ | ⟨hw, -⟩⟩
    · exact ⟨fun _ => ht, .inl ht⟩
    · refine ⟨fun hno => ?_, .inr ?_⟩
      · obtain ⟨a, -, hl⟩ := he.of_noPeripheral hno
        have hm := hcov a
        rw [hl] at hm
        cases hm
      · obtain ⟨k, a, rfl, hp⟩ := he.of_covered hcov
        exact ⟨k, a, hexec, hp⟩
    · exact absurd hw hnw

/-! ## Error kinds -/

/-- The errors of accesses, each with what stands at its address. -/
theorem WriteError.kind {s : State} {f : Fault} (h : WriteError s f) :
    (∃ a, f = .unmappedAddress a ∧ lookup s.regions a = none) ∨ (∃ a, f = .writeToReadOnly a ∧ IsRom s a) ∨
      ∃ k a, f = .peripheralError k a ∧ IsPeripheral s a := by
  rcases h with @⟨_, @⟨a, hu⟩ | @⟨a, k, hp⟩⟩ | @⟨a, hr⟩
  · exact .inl ⟨a, rfl, hu⟩
  · exact .inr (.inr ⟨k, a, rfl, hp⟩)
  · exact .inr (.inl ⟨a, rfl, hr⟩)

/-- A step ends with an access's error, or with `UnknownOpcode` of the unassigned byte at CP (R352, R353). -/
theorem step_fault_kind {s : State} {f : Fault} (h : step s = .fault f) :
    WriteError s f ∨
      ∃ op s1, f = .unknownOpcode op s.cp ∧ memRead s.cp s = .ok (op, s1) ∧ (decodeOp op 0 0).assigned = false := by
  rcases step_fault.1 h with hf | ⟨i, s1, hf, he⟩
  · exact .inl (.read (fetch_error hf))
  · obtain ⟨hsame, op, b1, b2, rfl, s2, hop⟩ := fetch_ok hf
    rcases exec_fault he with ⟨-, hr⟩ | ⟨-, hw⟩ | ⟨op', hsh, rfl⟩
    · exact .inl ((WriteError.read hr).congr hsame.2)
    · exact .inl (hw.congr hsame.2)
    · have hno := not_assigned_of_shape hsh
      rw [shape_of_not_assigned hno, opcode_decodeOp] at hsh
      cases hsh
      obtain ⟨-, -, -, has⟩ := decodeOp_row_zero op b1 b2
      exact .inr ⟨op, s2, by rw [hsame.cp], hop, has.symm.trans hno⟩

theorem step_ne_refused (s : State) (r : Refusal) : step s ≠ .refused r := by
  unfold step
  split
  · exact exec_ne_refused _ _ _
  · nofun

theorem not_assigned_of_unknownOpcode {i : Instr} {s : State} {op : Byte} {a : Addr}
    (h : exec i s = .fault (.unknownOpcode op a)) : i.assigned = false := by
  rcases exec_fault h with ⟨-, hr⟩ | ⟨-, hw⟩ | ⟨op', hsh, -⟩
  · cases hr
  · rcases hw with ⟨⟨⟩⟩
  · exact not_assigned_of_shape hsh

theorem writes_of_writeToReadOnly {i : Instr} {s : State} {a : Addr} (h : exec i s = .fault (.writeToReadOnly a)) :
    (shape i).Writes := by
  rcases exec_fault h with ⟨-, hr⟩ | ⟨hw, -⟩ | ⟨op', -, he⟩
  · cases hr
  · exact hw
  · cases he

/-- An error of an access comes from a shape that makes one. -/
theorem accesses_of_fault {i : Instr} {s : State} {e : Fault} (h : exec i s = .fault e)
    (he : ∀ op a, e ≠ .unknownOpcode op a) : (shape i).Reads ∨ (shape i).Writes := by
  rcases exec_fault h with ⟨hr, -⟩ | ⟨hw, -⟩ | ⟨op', -, he'⟩
  · exact .inl hr
  · exact .inr hw
  · exact absurd he' (he op' s.cp)

/-- The mnemonics and modes that make an access after the fetch (R351). -/
theorem Shape.RowOf.accesses {sh : Shape} {mode : Mode} {mn : Mnemonic} (h : sh.RowOf mode mn)
    (ha : sh.Reads ∨ sh.Writes) :
    mn ∈ [.pha, .phx, .phy, .php, .pla, .plx, .ply, .plp, .jsr, .rts, .brk, .rti] ∨
      (∃ m, mode = .mem m ∧ (mn = .jmp → m.tag ≠ .abs)) ∨ ∃ zp8 rel8, mode = .zprel zp8 rel8 := by
  have hstack : ∀ mn ∈ [Mnemonic.pla, .plx, .ply, .plp, .rts, .rti] ++ [.pha, .phx, .phy, .php, .jsr, .brk],
      mn ∈ [.pha, .phx, .phy, .php, .pla, .plx, .ply, .plp, .jsr, .rts, .brk, .rti] := by decide
  rcases ha with hr | hw
  · exact (h.reads hr).imp_left fun hm => hstack mn (List.mem_append_left _ hm)
  · rcases h.writes hw with hm | ⟨hm, m, hmode⟩
    · exact .inl (hstack mn (List.mem_append_right _ hm))
    · exact .inr (.inl ⟨m, hmode, fun hj => absurd hj hm.not_push.2⟩)

/-- Settles O55. -/
theorem stepErrorKinds : Obligations.StepErrorKinds := by
  refine ⟨fun s f h => ?_, step_ne_refused, fun i s op a h => Bool.eq_false_iff.1 (not_assigned_of_unknownOpcode h),
    fun i s a h => ?_, fun i s k a h => (shape_row i).accesses ?_⟩
  · rcases step_fault_kind h with he | ⟨op, s1, rfl, hop, hno⟩
    · rcases he.kind with hu | hr | hp
      · exact .inl hu
      · exact .inr (.inl hr)
      · exact .inr (.inr (.inr hp))
    · exact .inr (.inr (.inl ⟨op, s1, rfl, hop, hno⟩))
  · rcases (shape_row i).writes (writes_of_writeToReadOnly h) with hm | ⟨hm | hm, -⟩
    · exact .inl (List.mem_append_right [Mnemonic.sta, .stx, .sty, .stz, .asl, .lsr, .rol, .ror, .inc, .dec, .tsb, .trb] hm)
    · exact .inl (List.mem_append_left [Mnemonic.pha, .phx, .phy, .php, .jsr, .brk] hm)
    · exact .inr hm
  · rcases h with h | h
    · exact accesses_of_fault h nofun
    · exact accesses_of_fault h nofun

/-! ## Stored bytes -/

/-- The addresses at which a shape stores. -/
def Shape.Stores (s : State) (a : Addr) : Shape → Prop
  | .store _ m => ∃ r s1, resolve m s = .ok (r, s1) ∧ a = r.ea
  | .testAndWrite _ m => ∃ r s1, resolve m s = .ok (r, s1) ∧ a = r.ea
  | .modifyBit _ m => ∃ r s1, resolve m s = .ok (r, s1) ∧ a = r.ea
  | .shiftMem _ m => ∃ r s1, resolve m s = .ok (r, s1) ∧ a = r.ea
  | .stepMem _ m => ∃ r s1, resolve m s = .ok (r, s1) ∧ a = r.ea
  | .call _ => a = stackAddr s.sp ∨ a = stackAddr (s.sp - 1)
  | .softBreak => a = stackAddr s.sp ∨ a = stackAddr (s.sp - 1) ∨ a = stackAddr (s.sp - 2)
  | .pushByte _ => a = stackAddr s.sp
  | _ => False

/-- Reads and register writes leave every byte. -/
theorem peek_of_reads {s s1 t : State} (h : SameButPeripherals s s1) (hr : t.regions = s1.regions) (hm : t.mem = s1.mem)
    (a : Addr) : peek t a = peek s a :=
  (peek_congr (by rw [fabricMap, hr, fabricMap]) hm a).trans (h.peek a)

/-- The three accesses of a read-modify-write form change the byte at the address alone. -/
theorem readModifyWrite_peek {m : AddrMode} {r : Resolved} {v w : Byte} {s s1 s2 u s3 : State}
    (h1 : resolve m s = .ok (r, s1)) (h2 : memRead r.ea s1 = .ok (v, s2)) (hu : ∀ a, peek u a = peek s2 a)
    (h3 : memWrite r.ea w u = .ok s3) {a : Addr} (ha : ¬∃ r s1, resolve m s = .ok (r, s1) ∧ a = r.ea) :
    peek s3 a = peek s a := by
  rw [memWrite_peek_other h3 fun he => ha ⟨r, s1, h1, he⟩, hu, (memRead_ok h2).peek, (resolve_ok h1).peek]

/-- An instruction that answers changes no byte but those at which its shape stores. -/
theorem Shape.run_peek {i : Instr} {sh : Shape} {s t : State} (h : sh.run i s = .next t) {a : Addr}
    (ha : ¬sh.Stores s a) : peek t a = peek s a := by
  cases sh with
  | load r src =>
    obtain ⟨o, s1, h1, rfl⟩ := load_next.1 h
    exact peek_of_reads (readSource_ok h1) (by simp) (by simp) a
  | arith f src =>
    obtain ⟨o, s1, h1, rfl⟩ := arith_next.1 h
    exact peek_of_reads (readSource_ok h1) rfl rfl a
  | logic f src =>
    obtain ⟨o, s1, h1, rfl⟩ := logic_next.1 h
    exact peek_of_reads (readSource_ok h1) rfl rfl a
  | bitTest src =>
    obtain ⟨o, s1, h1, rfl⟩ := bitTest_next.1 h
    exact peek_of_reads (readSource_ok h1) rfl rfl a
  | compare r src =>
    obtain ⟨o, s1, h1, rfl⟩ := compareReg_next.1 h
    exact peek_of_reads (readSource_ok h1) rfl rfl a
  | store v m =>
    obtain ⟨r, s1, s2, h1, h2, rfl⟩ := store_next.1 h
    rw [peek_advance, memWrite_peek_other h2 fun he => ha ⟨r, s1, h1, he⟩, (resolve_ok h1).peek]
  | testAndWrite f m =>
    obtain ⟨r, s1, v, s2, s3, h1, h2, h3, rfl⟩ := testAndWrite_next.1 h
    exact readModifyWrite_peek (u := setStatus (Status.testZ s2.a v s2.p) s2) h1 h2 (fun _ => rfl) h3 ha
  | modifyBit f m =>
    obtain ⟨r, s1, v, s2, s3, h1, h2, h3, rfl⟩ := modifyBit_next.1 h
    exact readModifyWrite_peek h1 h2 (fun _ => rfl) h3 ha
  | shiftMem f m =>
    obtain ⟨r, s1, v, s2, s3, h1, h2, h3, rfl⟩ := shiftMem_next.1 h
    exact readModifyWrite_peek h1 h2 (fun _ => rfl) h3 ha
  | stepMem f m =>
    obtain ⟨r, s1, v, s2, s3, h1, h2, h3, rfl⟩ := stepMem_next.1 h
    exact readModifyWrite_peek h1 h2 (fun _ => rfl) h3 ha
  | bitBranch n want zp8 rel8 =>
    obtain ⟨v, s1, h1, rfl⟩ := bitBranch_next.1 h
    exact peek_of_reads (memRead_ok h1) (by rw [branchEnd_eq]) (by rw [branchEnd_eq]) a
  | branch cond rel8 =>
    cases h
    exact peek_of_reads (.refl s) (by rw [branchEnd_eq]) (by rw [branchEnd_eq]) a
  | jump m =>
    obtain ⟨r, s1, h1, rfl⟩ := jump_next.1 h
    exact peek_of_reads (resolve_ok h1) rfl rfl a
  | call target =>
    obtain ⟨s1, h1, rfl⟩ := callSubroutine_next.1 h
    obtain ⟨h0, h1'⟩ := not_or.1 ha
    exact (pushWord_ok h1).2.2 a h0 h1'
  | softBreak =>
    obtain ⟨s1, h1, rfl⟩ := breakTrap_next.1 h
    obtain ⟨h0, h12⟩ := not_or.1 ha
    obtain ⟨h1', h2⟩ := not_or.1 h12
    exact (takeBreak_ok h1).2.2 a h0 h1' h2
  | pushByte v =>
    obtain ⟨s1, h1, rfl⟩ := pushByte_next.1 h
    exact (push_frame h1).2.2 a ha
  | fromSubroutine =>
    obtain ⟨w, s1, h1, rfl⟩ := returnFromSubroutine_next.1 h
    exact peek_congr (pullWord_ok h1).2.1 (pullWord_ok h1).2.2 a
  | fromBreak =>
    obtain ⟨s1, h1, rfl⟩ := returnTrap_next.1 h
    obtain ⟨w, -, hmap, hmem⟩ := returnFromBreak_ok h1
    exact peek_congr hmap hmem a
  | pullReg r =>
    obtain ⟨v, s1, h1, rfl⟩ := pullReg_next.1 h
    exact (peek_of_reads (.refl s1) (by simp) (by simp) a).trans (peek_congr (pull_ok h1).2.1 (pull_ok h1).2.2 a)
  | pullStatus =>
    obtain ⟨v, s1, h1, rfl⟩ := pullStatus_next.1 h
    exact peek_congr (pull_ok h1).2.1 (pull_ok h1).2.2 a
  | unknown op => cases h
  | transfer | stepReg => cases h; exact peek_of_reads (.refl s) (by simp) (by simp) a
  | toStackPointer | shiftAcc | writeStatus | noOperation | stop => cases h; rfl

theorem exec_peek {i : Instr} {s t : State} (h : exec i s = .next t) {a : Addr} (ha : ¬(shape i).Stores s a) :
    peek t a = peek s a :=
  Shape.run_peek (exec_eq_shape i s ▸ h) ha

/-- Where an instruction stores, by its row. -/
theorem Shape.RowOf.stores {sh : Shape} {mode : Mode} {mn : Mnemonic} {s : State} {a : Addr} (h : sh.RowOf mode mn)
    (hs : sh.Stores s a) :
    (StoringMnemonic mn ∧ ∃ m r s1, mode = .mem m ∧ resolve m s = .ok (r, s1) ∧ a = r.ea) ∨
      (mn ∈ [.pha, .phx, .phy, .php] ∧ a = stackAddr s.sp) ∨
      (mn = .jsr ∧ (a = stackAddr s.sp ∨ a = stackAddr (s.sp - 1))) ∨
      mn = .brk ∧ (a = stackAddr s.sp ∨ a = stackAddr (s.sp - 1) ∨ a = stackAddr (s.sp - 2)) := by
  cases sh with
  | store _ m | testAndWrite _ m | modifyBit _ m | shiftMem _ m | stepMem _ m =>
    obtain ⟨r, s1, hr, he⟩ := hs
    have hmode := mode_of_modeAddress h.2
    rcases h.writes trivial with hm | ⟨hm, -⟩
    · have hm' := h.1
      simp only [List.mem_cons, List.not_mem_nil, or_false] at hm hm'
      grind
    · exact .inl ⟨hm, m, r, s1, hmode, hr, he⟩
  | call => exact .inr (.inr (.inl ⟨h, hs⟩))
  | softBreak => exact .inr (.inr (.inr ⟨h, hs⟩))
  | pushByte v =>
    refine .inr (.inl ⟨?_, hs⟩)
    simp only [RowOf, List.mem_cons, List.not_mem_nil, or_false] at h ⊢
    grind
  | _ => exact hs.elim

/-- Settles O48. -/
theorem memoryFrame : Obligations.MemoryFrame := by
  intro i s t h storing
  have hrow := fun {a : Addr} => (shape_row i).stores (s := s) (a := a)
  refine ⟨fun m r s1 hst hmode hr a ha => exec_peek h fun hs => ?_, fun hm a ha => exec_peek h fun hs => ?_,
    fun hm a h0 h1 => exec_peek h fun hs => ?_, fun hm a h0 h1 h2 => exec_peek h fun hs => ?_,
    fun hst hpush a => exec_peek h fun hs => ?_⟩
  · rcases hrow hs with ⟨-, m', r', s1', hmode', hr', he⟩ | ⟨hm, -⟩ | ⟨hm, -⟩ | ⟨hm, -⟩
    · rw [hmode] at hmode'
      cases hmode'
      rw [hr] at hr'
      cases hr'
      exact ha he
    · exact (StoringMnemonic.not_push hst).1 (List.mem_append_left [Mnemonic.jsr, .brk] hm)
    · exact (StoringMnemonic.not_push hst).1 (by simp [hm])
    · exact (StoringMnemonic.not_push hst).1 (by simp [hm])
  · rcases hrow hs with ⟨hst, -⟩ | ⟨-, he⟩ | ⟨hm', -⟩ | ⟨hm', -⟩
    · exact hst.not_push.1 (List.mem_append_left [Mnemonic.jsr, .brk] hm)
    · exact ha he
    · simp [hm'] at hm
    · simp [hm'] at hm
  · rcases hrow hs with ⟨hst, -⟩ | ⟨hm', -⟩ | ⟨-, he⟩ | ⟨hm', -⟩
    · exact hst.not_push.1 (by simp [hm])
    · simp [hm] at hm'
    · exact he.elim h0 h1
    · simp [hm] at hm'
  · rcases hrow hs with ⟨hst, -⟩ | ⟨hm', -⟩ | ⟨hm', -⟩ | ⟨-, he⟩
    · exact hst.not_push.1 (by simp [hm])
    · simp [hm] at hm'
    · simp [hm] at hm'
    · exact he.elim h0 fun he => he.elim h1 h2
  · rcases hrow hs with ⟨hst', m, r, s1, hmode, -⟩ | ⟨hm, -⟩ | ⟨hm, -⟩ | ⟨hm, -⟩
    · exact hst ⟨hst', by rw [hmode]; nofun⟩
    · exact hpush (List.mem_append_left [Mnemonic.jsr, .brk] hm)
    · exact hpush (by simp [hm])
    · exact hpush (by simp [hm])

end Sys2Proof.Machine

/-! # Proofs: what no instruction depends on (R14, R16, R17, R362) -/

namespace Sys2Proof.Machine

/-! ## An inert flag in P -/

section
variable {k : Flag} (hk : k ∈ inertFlags)
include hk

theorem Status.setNZ_set (v : Byte) (x : Bool) (p : Status) : Status.setNZ v (p.set k x) = (Status.setNZ v p).set k x := by
  rcases mem_inertFlags.1 hk with rfl | rfl | rfl <;> rfl

theorem Status.setArith_set (r : ArithResult) (x : Bool) (p : Status) :
    Status.setArith r (p.set k x) = (Status.setArith r p).set k x := by
  rcases mem_inertFlags.1 hk with rfl | rfl | rfl <;> rfl

theorem Status.setShift_set (r : ShiftResult) (x : Bool) (p : Status) :
    Status.setShift r (p.set k x) = (Status.setShift r p).set k x := by
  rcases mem_inertFlags.1 hk with rfl | rfl | rfl <;> rfl

theorem Status.compare_set (reg m : Byte) (x : Bool) (p : Status) :
    Status.compare reg m (p.set k x) = (Status.compare reg m p).set k x := by
  rcases mem_inertFlags.1 hk with rfl | rfl | rfl <;> rfl

theorem Status.testZ_set (a m : Byte) (x : Bool) (p : Status) :
    Status.testZ a m (p.set k x) = (Status.testZ a m p).set k x := by
  rcases mem_inertFlags.1 hk with rfl | rfl | rfl <;> rfl

theorem Status.bitTest_set (imm : Bool) (a m : Byte) (x : Bool) (p : Status) :
    Status.bitTest Config.bitFlags imm a m (p.set k x) = (Status.bitTest Config.bitFlags imm a m p).set k x := by
  rcases mem_inertFlags.1 hk with rfl | rfl | rfl <;> cases imm <;> rfl

/-- A pulled P depends on B alone. -/
theorem Status.pulled_set (w : Byte) (x : Bool) (p : Status) :
    ∃ y, Status.pulled Config.pullB w (p.set k x) = (Status.pulled Config.pullB w p).set k y := by
  rcases mem_inertFlags.1 hk with rfl | rfl | rfl
  · exact ⟨x, rfl⟩
  · exact ⟨w.getLsbD 3, rfl⟩
  · exact ⟨w.getLsbD 2, rfl⟩

theorem Status.c_set (x : Bool) (p : Status) : (p.set k x).c = p.c := by
  rcases mem_inertFlags.1 hk with rfl | rfl | rfl <;> rfl
end

/-- Of two writes of flags the later one stands. -/
theorem Status.set_set (k l : Flag) (x y : Bool) (p : Status) : ∃ z, Status.set l y (p.set k x) = (p.set l y).set k z := by
  cases k <;> cases l <;> exact ⟨_, rfl⟩

/-- The pushed byte has bit 4 set, whatever B is (R307). -/
theorem Status.pushed_set_b (x : Bool) (p : Status) : (p.set .b x).pushed = p.pushed := by
  obtain ⟨n, v, b, d, i, z, c⟩ := p
  revert x n v b d i z c
  decide

/-- The additions read D and C of P alone. -/
theorem adcResult_set {k : Flag} (hk : k ∈ [Flag.b, .i]) (x : Bool) (p : Status) :
    adcResult (p.set k x) = adcResult p ∧ sbcResult (p.set k x) = sbcResult p ∧
      decimalCycle (p.set k x) = decimalCycle p := by
  simp only [List.mem_cons, List.not_mem_nil, or_false] at hk
  rcases hk with rfl | rfl <;> exact ⟨rfl, rfl, rfl⟩

/-! ## States that differ in an inert flag and in the cycle count -/

/-- The second state is the first but for flag `k` and `δ` more cycles. -/
def Alike (k : Flag) (δ : BitVec 64) (s s' : State) : Prop :=
  ∃ x, s' = { s with p := s.p.set k x, cycleCount := s.cycleCount + δ }

/-- When the first access answers, so does the second, the same value and an alike state. -/
def AccessAlike {α : Type} (k : Flag) (δ : BitVec 64) (r r' : Access α) : Prop :=
  ∀ v t, r = .ok (v, t) → ∃ t', r' = .ok (v, t') ∧ Alike k δ t t'

def StateAlike (k : Flag) (δ : BitVec 64) (r r' : Except Fault State) : Prop :=
  ∀ t, r = .ok t → ∃ t', r' = .ok t' ∧ Alike k δ t t'

def ResultAlike (k : Flag) (δ : BitVec 64) (r r' : Result) : Prop :=
  ∀ t, r = .next t → ∃ t', r' = .next t' ∧ Alike k δ t t'

section
variable {k : Flag} {δ : BitVec 64} {s s' : State}

theorem AccessAlike.ok {α : Type} (v : α) (h : Alike k δ s s') : AccessAlike k δ (.ok (v, s)) (.ok (v, s')) :=
  fun _ _ he => by cases he; exact ⟨s', rfl, h⟩

theorem StateAlike.ok (h : Alike k δ s s') : StateAlike k δ (.ok s) (.ok s') :=
  fun _ he => by cases he; exact ⟨s', rfl, h⟩

theorem ResultAlike.next (h : Alike k δ s s') : ResultAlike k δ (.next s) (.next s') :=
  fun _ he => by cases he; exact ⟨s', rfl, h⟩

theorem ResultAlike.toResult {r r' : Except Fault State} (h : StateAlike k δ r r') :
    ResultAlike k δ (toResult r) (toResult r') := fun t ht => by
  obtain ⟨t', ht', ha⟩ := h t (toResult_eq_next.1 ht)
  exact ⟨t', toResult_eq_next.2 ht', ha⟩

theorem AccessAlike.answer {α β : Type} {r r' : Access α} {f f' : α → State → Access β} (hr : AccessAlike k δ r r')
    (hf : ∀ v u u', Alike k δ u u' → AccessAlike k δ (f v u) (f' v u')) :
    AccessAlike k δ (withAnswer r f) (withAnswer r' f') := fun w t ht => by
  obtain ⟨v, u, hu, hw⟩ := withAnswer_eq_ok.1 ht
  obtain ⟨u', hu', ha⟩ := hr v u hu
  obtain ⟨t', ht', hat⟩ := hf v u u' ha w t hw
  exact ⟨t', withAnswer_eq_ok.2 ⟨v, u', hu', ht'⟩, hat⟩

theorem StateAlike.answer {α : Type} {r r' : Access α} {f f' : α → State → Except Fault State} (hr : AccessAlike k δ r r')
    (hf : ∀ v u u', Alike k δ u u' → StateAlike k δ (f v u) (f' v u')) :
    StateAlike k δ (withAnswer r f) (withAnswer r' f') := fun t ht => by
  obtain ⟨v, u, hu, hw⟩ := withAnswer_eq_ok.1 ht
  obtain ⟨u', hu', ha⟩ := hr v u hu
  obtain ⟨t', ht', hat⟩ := hf v u u' ha t hw
  exact ⟨t', withAnswer_eq_ok.2 ⟨v, u', hu', ht'⟩, hat⟩

theorem StateAlike.andThen {r r' : Except Fault State} {f f' : State → Except Fault State} (hr : StateAlike k δ r r')
    (hf : ∀ u u', Alike k δ u u' → StateAlike k δ (f u) (f' u')) :
    StateAlike k δ (withState r f) (withState r' f') := fun t ht => by
  obtain ⟨u, hu, hw⟩ := withState_eq_ok.1 ht
  obtain ⟨u', hu', ha⟩ := hr u hu
  obtain ⟨t', ht', hat⟩ := hf u u' ha t hw
  exact ⟨t', withState_eq_ok.2 ⟨u', hu', ht'⟩, hat⟩

/-! ## What the two states share -/

theorem Alike.a (h : Alike k δ s s') : s'.a = s.a := by obtain ⟨x, rfl⟩ := h; rfl
theorem Alike.x (h : Alike k δ s s') : s'.x = s.x := by obtain ⟨x, rfl⟩ := h; rfl
theorem Alike.y (h : Alike k δ s s') : s'.y = s.y := by obtain ⟨x, rfl⟩ := h; rfl
theorem Alike.sp (h : Alike k δ s s') : s'.sp = s.sp := by obtain ⟨x, rfl⟩ := h; rfl
theorem Alike.cp (h : Alike k δ s s') : s'.cp = s.cp := by obtain ⟨x, rfl⟩ := h; rfl
theorem Alike.p (h : Alike k δ s s') : ∃ x, s'.p = s.p.set k x := by obtain ⟨x, rfl⟩ := h; exact ⟨x, rfl⟩
theorem Alike.reg (h : Alike k δ s s') (r : Reg) : s'.reg r = s.reg r := by obtain ⟨x, rfl⟩ := h; cases r <;> rfl

/-! ## The operations keep states alike -/

theorem Alike.setReg (h : Alike k δ s s') (r : Reg) (v : Byte) : Alike k δ (setReg r v s) (setReg r v s') := by
  obtain ⟨x, rfl⟩ := h
  exact ⟨x, by cases r <;> rfl⟩

theorem Alike.setCp (h : Alike k δ s s') (target : Addr) : Alike k δ (setCp target s) (setCp target s') := by
  obtain ⟨x, rfl⟩ := h
  exact ⟨x, rfl⟩

theorem Alike.addCycles (h : Alike k δ s s') (n : Nat) : Alike k δ (addCycles n s) (addCycles n s') := by
  obtain ⟨x, rfl⟩ := h
  have hcomm : s.cycleCount + δ + BitVec.ofNat 64 n = s.cycleCount + BitVec.ofNat 64 n + δ := by ac_rfl
  exact ⟨x, by simp only [Machine.addCycles, hcomm]⟩

theorem Alike.advance (h : Alike k δ s s') (len n : Nat) : Alike k δ (advance len n s) (advance len n s') := by
  rw [Machine.advance, Machine.advance, h.cp]
  exact (h.setCp _).addCycles n

theorem Alike.jumpTo (h : Alike k δ s s') (target : Addr) (n : Nat) : Alike k δ (jumpTo target n s) (jumpTo target n s') :=
  (h.setCp target).addCycles n

theorem Alike.branchEnd (h : Alike k δ s s') (taken : Bool) (len : Nat) (target : Addr) (n : Nat) :
    Alike k δ (branchEnd taken len target n s) (branchEnd taken len target n s') := by
  cases taken with
  | true =>
    simp only [Machine.branchEnd, if_true, h.cp]
    exact h.jumpTo target _
  | false => exact h.advance len n

/-- A new P that depends on flag `k` in flag `k` alone. -/
theorem Alike.setStatus {f : Status → Status} (h : Alike k δ s s') (hf : ∀ x, ∃ y, f (s.p.set k x) = (f s.p).set k y) :
    Alike k δ (setStatus (f s.p) s) (setStatus (f s'.p) s') := by
  obtain ⟨x, rfl⟩ := h
  obtain ⟨y, hy⟩ := hf x
  refine ⟨y, ?_⟩
  simp only [Machine.setStatus, hy]

theorem Alike.setNZ (h : Alike k δ s s') (hk : k ∈ inertFlags) (v : Byte) : Alike k δ (setNZ v s) (setNZ v s') :=
  h.setStatus (f := Status.setNZ v) fun x => ⟨x, Status.setNZ_set hk v x s.p⟩

/-- Over another fabric and store the states stay alike. -/
theorem Alike.overFabric (h : Alike k δ s s') {u : State} (hu : u = overFabric s u) : Alike k δ u (overFabric s' u) := by
  obtain ⟨x, rfl⟩ := h
  exact ⟨x, by rw [hu]; rfl⟩

/-- The fabric and the store of alike states are the same. -/
theorem Alike.eq_over (h : Alike k δ s s') : s' = Machine.overFabric s' s := by
  obtain ⟨x, rfl⟩ := h
  rfl

theorem Alike.memRead (h : Alike k δ s s') (a : Addr) : AccessAlike k δ (memRead a s) (memRead a s') := fun v t ht => by
  refine ⟨Machine.overFabric s' t, ?_, h.overFabric (memRead_ok ht).over⟩
  rw [h.eq_over, memRead_overFabric, ht]
  rfl

theorem Alike.memWrite (h : Alike k δ s s') (a : Addr) (v : Byte) : StateAlike k δ (memWrite a v s) (memWrite a v s') :=
  fun t ht => by
    refine ⟨Machine.overFabric s' t, ?_, h.overFabric (memWrite_over ht)⟩
    rw [h.eq_over, memWrite_overFabric, ht]
    rfl

theorem Alike.memRead16 (h : Alike k δ s s') (a : Addr) : AccessAlike k δ (memRead16 a s) (memRead16 a s') :=
  .answer (h.memRead a) fun _ _ _ h1 => .answer (h1.memRead (a + 1)) fun _ _ _ h2 => .ok _ h2

theorem Alike.memRead16zp (h : Alike k δ s s') (z : Byte) : AccessAlike k δ (memRead16zp z s) (memRead16zp z s') :=
  .answer (h.memRead (zext16 z)) fun _ _ _ h1 => .answer (h1.memRead (zext16 (z + 1))) fun _ _ _ h2 => .ok _ h2

theorem Alike.resolve (h : Alike k δ s s') (m : AddrMode) : AccessAlike k δ (resolve m s) (resolve m s') := by
  cases m with
  | zp z => exact .ok _ h
  | abs lo hi => exact .ok _ h
  | zpx z => rw [Machine.resolve, Machine.resolve, h.x]; exact .ok _ h
  | absx lo hi => rw [Machine.resolve, Machine.resolve, h.x]; exact .ok _ h
  | zpy z => rw [Machine.resolve, Machine.resolve, h.y]; exact .ok _ h
  | absy lo hi => rw [Machine.resolve, Machine.resolve, h.y]; exact .ok _ h
  | ind lo hi => exact .answer (h.memRead16 _) fun _ _ _ h1 => .ok _ h1
  | izp z => exact .answer (h.memRead16zp z) fun _ _ _ h1 => .ok _ h1
  | izx z =>
    rw [Machine.resolve, Machine.resolve, h.x]
    exact .answer (h.memRead16zp _) fun _ _ _ h1 => .ok _ h1
  | iax lo hi =>
    rw [Machine.resolve, Machine.resolve, h.x]
    exact .answer (h.memRead16 _) fun _ _ _ h1 => .ok _ h1
  | izy z =>
    rw [Machine.resolve, Machine.resolve, h.y]
    exact .answer (h.memRead16zp z) fun _ _ _ h1 => .ok _ h1

theorem Alike.readSource (h : Alike k δ s s') (src : Source) : AccessAlike k δ (readSource src s) (readSource src s') := by
  cases src with
  | imm v => exact .ok _ h
  | mem m => exact .answer (h.resolve m) fun r _ _ h1 => .answer (h1.memRead r.ea) fun _ _ _ h2 => .ok _ h2

theorem Alike.push (h : Alike k δ s s') (v : Byte) : StateAlike k δ (push v s) (push v s') := by
  rw [Machine.push, Machine.push, h.sp]
  exact .andThen (h.memWrite _ v) fun u u' hu => .ok (hu.sp ▸ hu.setReg .sp _)

theorem Alike.pull (h : Alike k δ s s') : AccessAlike k δ (pull s) (pull s') := by
  have h1 := h.setReg .sp (s.sp + 1)
  rw [Machine.pull, Machine.pull, h.sp]
  exact h1.memRead _

theorem Alike.pushWord (h : Alike k δ s s') (w : Addr) : StateAlike k δ (pushWord w s) (pushWord w s') :=
  .andThen (h.push (highByte w)) fun _ _ h1 => h1.push (lowByte w)

theorem Alike.pullWord (h : Alike k δ s s') : AccessAlike k δ (pullWord s) (pullWord s') :=
  .answer h.pull fun _ _ _ h1 => .answer h1.pull fun _ _ _ h2 => .ok _ h2

theorem Alike.returnFromBreak (h : Alike k δ s s') (hk : k ∈ inertFlags) :
    StateAlike k δ (returnFromBreak s) (returnFromBreak s') :=
  .answer h.pull fun w _ _ h1 =>
    .answer (h1.setStatus (f := Status.pulled Config.pullB w) fun x => Status.pulled_set hk w x _).pullWord
      fun target _ _ h2 => .ok (h2.setCp target)

end

/-- BRK pushes D and I, not B (R284). -/
theorem Alike.takeBreak {δ : BitVec 64} {s s' : State} (h : Alike .b δ s s') : StateAlike .b δ (takeBreak s) (takeBreak s') := by
  rw [Machine.takeBreak, Machine.takeBreak, h.cp]
  refine .andThen (h.pushWord _) fun u u' h1 => ?_
  obtain ⟨x, hx⟩ := h1.p
  rw [hx, Status.pushed_set_b]
  refine .andThen (h1.push _) fun v v' h2 => ?_
  exact .answer ((h2.setStatus (f := fun p => { p with i := true, d := false }) fun x => ⟨x, rfl⟩).memRead16 _)
    fun target _ _ h3 => .ok (h3.setCp target)

/-! ## The instructions -/

/-- An instruction may depend on flag `k`: the additions on D, the pushes of P on D and I. -/
def Looks (k : Flag) (mn : Mnemonic) : Prop := k = .d ∧ mn ∈ [.adc, .sbc] ∨ k ≠ .b ∧ mn ∈ [.php, .brk]

section
variable {i : Instr} {mode : Mode} {mn : Mnemonic} {k : Flag} {δ : BitVec 64} {s s' : State}

/-- The additions look at D alone of the inert flags. -/
theorem Alike.arith {f : Status → Byte → Byte → ArithResult} {src : Source} (h : Alike k δ s s') (hk : k ∈ inertFlags)
    (hf : ∀ (x : Bool) (p : Status), f (p.set k x) = f p ∧ decimalCycle (p.set k x) = decimalCycle p) (c : Bool → Nat) :
    ResultAlike k δ (arith f src c s) (arith f src c s') := by
  refine .toResult (.answer (h.readSource src) fun o u u' h1 => ?_)
  obtain ⟨x, hx⟩ := h1.p
  have hr : f u'.p u'.a o.value = f u.p u.a o.value := by rw [hx, (hf x u.p).1, h1.a]
  have hc : decimalCycle u'.p = decimalCycle u.p := by rw [hx, (hf x u.p).2]
  simp only [hr, hc]
  exact .ok (((h1.setReg .a _).setStatus (f := Status.setArith _) fun x => ⟨x, Status.setArith_set hk _ x _⟩).advance _ _)

theorem arith_blind {f : Status → Byte → Byte → ArithResult} (hk : k ∈ inertFlags) (hl : ¬Looks k mn)
    (hf : mn = .adc ∧ f = adcResult ∨ mn = .sbc ∧ f = sbcResult) (x : Bool) (p : Status) :
    f (p.set k x) = f p ∧ decimalCycle (p.set k x) = decimalCycle p := by
  have hmn : mn ∈ [.adc, .sbc] := by rcases hf with ⟨rfl, -⟩ | ⟨rfl, -⟩ <;> simp
  have hbi : k ∈ [Flag.b, .i] := by
    rcases mem_inertFlags.1 hk with rfl | rfl | rfl
    · simp
    · exact absurd (.inl ⟨rfl, hmn⟩) hl
    · simp
  obtain ⟨ha, hs, hc⟩ := adcResult_set hbi x p
  rcases hf with ⟨-, rfl⟩ | ⟨-, rfl⟩
  · exact ⟨ha, hc⟩
  · exact ⟨hs, hc⟩

theorem Alike.shiftMem (h : Alike k δ s s') (hk : k ∈ inertFlags) (f : Bool → Byte → ShiftResult) (m : AddrMode)
    (c : Bool → Nat) : ResultAlike k δ (shiftMem f m c s) (shiftMem f m c s') := by
  refine .toResult (.answer (h.resolve m) fun r _ _ h1 => .answer (h1.memRead r.ea) fun v u u' h2 => ?_)
  obtain ⟨x, hx⟩ := h2.p
  simp only [show u'.p.c = u.p.c by rw [hx, Status.c_set hk]]
  exact .andThen (h2.memWrite r.ea _) fun _ _ h3 =>
    .ok ((h3.setStatus (f := Status.setShift _) fun x => ⟨x, Status.setShift_set hk _ x _⟩).advance _ _)

theorem Alike.testAndWrite (h : Alike k δ s s') (hk : k ∈ inertFlags) (f : Byte → Byte → Byte) (m : AddrMode)
    (c : Bool → Nat) : ResultAlike k δ (testAndWrite f m c s) (testAndWrite f m c s') := by
  refine .toResult (.answer (h.resolve m) fun r _ _ h1 => .answer (h1.memRead r.ea) fun v u u' h2 => ?_)
  rw [h2.a]
  exact .andThen ((h2.setStatus (f := Status.testZ u.a v) fun x => ⟨x, Status.testZ_set hk _ _ x _⟩).memWrite r.ea _)
    fun _ _ h3 => .ok (h3.advance _ _)

/-- The byte of a store is a register's, or zero. -/
theorem Alike.storedByte {v : State → Byte} {m : AddrMode} (h : Alike k δ s s')
    (hrow : (Shape.store v m).RowOf mode mn) : v s' = v s := by
  obtain ⟨⟨-, r, rfl⟩ | ⟨-, rfl⟩, -⟩ := hrow
  · exact h.reg r
  · rfl

/-- The byte of a push is a register's, or P's, which PHP alone pushes. -/
theorem Alike.pushedByte {v : State → Byte} (h : Alike k δ s s') (hrow : (Shape.pushByte v).RowOf mode mn)
    (hl : ¬Looks k mn) : v s' = v s := by
  rcases hrow with ⟨-, r, rfl⟩ | ⟨hm, rfl⟩
  · exact h.reg r
  · have hb : k = .b := Classical.not_not.1 fun hne => hl (.inr ⟨hne, by simp [hm]⟩)
    subst hb
    obtain ⟨x, hx⟩ := h.p
    simp only [hx, Status.pushed_set_b]

/-- From alike states an instruction that does not look at flag `k` answers alike states. -/
theorem Shape.run_alike {sh : Shape} (hrow : sh.RowOf mode mn) (hk : k ∈ inertFlags) (hl : ¬Looks k mn)
    (h : Alike k δ s s') : ResultAlike k δ (sh.run i s) (sh.run i s') := by
  cases sh with
  | load r src =>
    exact .toResult (.answer (h.readSource src) fun o _ _ h1 => .ok (((h1.setReg r o.value).setNZ hk o.value).advance _ _))
  | store v m =>
    rw [run, run, h.storedByte hrow]
    exact .toResult (.answer (h.resolve m) fun r _ _ h1 => .andThen (h1.memWrite r.ea _) fun _ _ h2 => .ok (h2.advance _ _))
  | transfer src dst =>
    simp only [run, Machine.transfer, h.reg]
    exact .next (((h.setReg dst _).setNZ hk _).advance _ _)
  | toStackPointer =>
    rw [run, run, h.x]
    exact .next ((h.setReg .sp _).advance _ _)
  | arith f src => exact h.arith hk (arith_blind hk hl hrow.1) _
  | logic f src =>
    refine .toResult (.answer (h.readSource src) fun o u u' h1 => ?_)
    rw [h1.a]
    exact .ok (((h1.setReg .a _).setNZ hk _).advance _ _)
  | bitTest src =>
    refine .toResult (.answer (h.readSource src) fun o u u' h1 => ?_)
    rw [h1.a]
    exact .ok ((h1.setStatus (f := Status.bitTest Config.bitFlags src.isImmediate u.a o.value)
      fun x => ⟨x, Status.bitTest_set hk _ _ _ x _⟩).advance _ _)
  | compare r src =>
    refine .toResult (.answer (h.readSource src) fun o u u' h1 => ?_)
    rw [h1.reg]
    exact .ok ((h1.setStatus (f := Status.compare (u.reg r) o.value)
      fun x => ⟨x, Status.compare_set hk _ _ x _⟩).advance _ _)
  | testAndWrite f m => exact h.testAndWrite hk f m _
  | modifyBit f m =>
    exact .toResult (.answer (h.resolve m) fun r _ _ h1 => .answer (h1.memRead r.ea) fun v _ _ h2 =>
      .andThen (h2.memWrite r.ea (f v)) fun _ _ h3 => .ok (h3.advance _ _))
  | shiftAcc f =>
    obtain ⟨x, hx⟩ := h.p
    simp only [run, Machine.shiftAcc, h.a, show s'.p.c = s.p.c by rw [hx, Status.c_set hk]]
    exact .next (((h.setReg .a _).setStatus (f := Status.setShift _) fun x => ⟨x, Status.setShift_set hk _ x _⟩).advance _ _)
  | shiftMem f m => exact h.shiftMem hk f m _
  | stepReg r f =>
    simp only [run, Machine.stepReg, h.reg]
    exact .next (((h.setReg r _).setNZ hk _).advance _ _)
  | stepMem f m =>
    exact .toResult (.answer (h.resolve m) fun r _ _ h1 => .answer (h1.memRead r.ea) fun v _ _ h2 =>
      .andThen (h2.memWrite r.ea (f v)) fun _ _ h3 => .ok ((h3.setNZ hk (f v)).advance _ _))
  | branch cond rel8 =>
    obtain ⟨x, hx⟩ := h.p
    simp only [run, Machine.branch, h.cp, show cond s'.p = cond s.p by rw [hx, hrow.2 k hk]]
    exact .next (h.branchEnd _ _ _ _)
  | bitBranch n want zp8 rel8 =>
    refine .toResult (.answer (h.memRead _) fun v u u' h1 => ?_)
    rw [h1.cp]
    exact .ok (h1.branchEnd _ _ _ _)
  | jump m => exact .toResult (.answer (h.resolve m) fun r _ _ h1 => .ok (h1.jumpTo r.ea _))
  | call target =>
    rw [run, run, callSubroutine, callSubroutine, h.cp]
    exact .toResult (.andThen (h.pushWord _) fun _ _ h1 => .ok (h1.jumpTo target _))
  | fromSubroutine => exact .toResult (.answer h.pullWord fun w _ _ h1 => .ok (h1.jumpTo (w + 1) _))
  | softBreak =>
    have hb : k = .b := Classical.not_not.1 fun hne => hl (.inr ⟨hne, by simp [show mn = _ from hrow]⟩)
    subst hb
    exact .toResult (.andThen h.takeBreak fun _ _ h1 => .ok (h1.addCycles _))
  | fromBreak => exact .toResult (.andThen (h.returnFromBreak hk) fun _ _ h1 => .ok (h1.addCycles _))
  | pushByte v =>
    rw [run, run, h.pushedByte hrow hl]
    exact .toResult (.andThen (h.push _) fun _ _ h1 => .ok (h1.advance _ _))
  | pullReg r => exact .toResult (.answer h.pull fun v _ _ h1 => .ok (((h1.setReg r v).setNZ hk v).advance _ _))
  | pullStatus =>
    exact .toResult (.answer h.pull fun w _ _ h1 =>
      .ok ((h1.setStatus (f := Status.pulled Config.pullB w) fun x => Status.pulled_set hk w x _).advance _ _))
  | writeStatus f =>
    obtain ⟨l, y, rfl, -⟩ := hrow
    exact .next ((h.setStatus (f := Status.set l y) fun x => Status.set_set k l x y s.p).advance _ _)
  | noOperation => exact .next (h.advance _ _)
  | stop =>
    rw [run, run, Machine.stop, Machine.stop, h.cp]
    exact .next ((h.setCp _).addCycles _)
  | unknown op => nofun

theorem exec_alike (hk : k ∈ inertFlags) (hl : ¬Looks k i.mnemonic) (h : Alike k δ s s') :
    ResultAlike k δ (exec i s) (exec i s') := by
  rw [exec_eq_shape, exec_eq_shape]
  exact Shape.run_alike (shape_row i) hk hl h

theorem count_add_zero (c : BitVec 64) : c + 0 = c := BitVec.add_zero c

theorem count_add_sub (c n : BitVec 64) : c + (n - c) = n := by
  rw [BitVec.add_comm, BitVec.sub_add_cancel]

theorem count_add_sub_comm (c c' n : BitVec 64) : c' + (n - c) = n + (c' - c) := by
  rw [BitVec.sub_eq_add_neg, BitVec.sub_eq_add_neg]
  ac_rfl

/-- From a state with another inert flag and another cycle count an instruction that does not look at the flag answers the
same but for that flag, and adds the same cycles. -/
theorem exec_vary {t : State} (hk : k ∈ inertFlags) (hl : ¬Looks k i.mnemonic) (h : exec i s = .next t) (x : Bool)
    (n : BitVec 64) :
    ∃ y, exec i { s with p := s.p.set k x, cycleCount := n } =
      .next { t with p := t.p.set k y, cycleCount := n + (t.cycleCount - s.cycleCount) } := by
  have halike : Alike k (n - s.cycleCount) s { s with p := s.p.set k x, cycleCount := n } :=
    ⟨x, by simp only [count_add_sub]⟩
  obtain ⟨t', ht, y, rfl⟩ := exec_alike hk hl halike t h
  refine ⟨y, ht.trans ?_⟩
  rw [count_add_sub_comm]

end

/-! ## The statements -/

theorem not_looks_b (mn : Mnemonic) : ¬Looks .b mn := by
  rintro (⟨h, -⟩ | ⟨h, -⟩)
  · cases h
  · exact h rfl

/-- B passes through every instruction. -/
theorem exec_vary_b {i : Instr} {s t : State} (h : exec i s = .next t) (x : Bool) (n : BitVec 64) :
    exec i { s with p := { s.p with b := x }, cycleCount := n } =
      .next { t with p := { t.p with b := x }, cycleCount := n + (t.cycleCount - s.cycleCount) } := by
  obtain ⟨y, hy⟩ := exec_vary (by simp [inertFlags]) (not_looks_b _) h x n
  obtain rfl : y = x := exec_flagRow hy .b id
  exact hy

/-- Settles O56. -/
theorem cycleCountBreakAndInterruptFlagsAreInert : Obligations.CycleCountBreakAndInterruptFlagsAreInert := by
  intro i s t h
  have hb : t.p.b = s.p.b := exec_flagRow h .b id
  refine ⟨fun n => ?_, fun b => ?_, fun f hm => ?_⟩
  · have hn := exec_vary_b h s.p.b n
    have hp : ({ t.p with b := s.p.b } : Status) = t.p := by rw [← hb]
    rwa [hp] at hn
  · have hn := exec_vary_b h b s.cycleCount
    rwa [count_add_sub] at hn
  · have hl : ¬Looks .i i.mnemonic := by
      rintro (⟨hd, -⟩ | ⟨-, hp⟩)
      · cases hd
      · exact hm hp
    obtain ⟨g, hg⟩ := exec_vary (by simp [inertFlags]) hl h f s.cycleCount
    rw [count_add_sub] at hg
    exact ⟨g, hg⟩

/-- An addition adds one cycle with D set. -/
theorem arith_decimalCycle {f : Status → Byte → Byte → ArithResult} {src : Source} {c : Bool → Nat} {s s' t t' : State}
    (ha : Alike .d 0 s s') (h0 : s.p.d = false) (h1 : s'.p.d = true) (h : arith f src c s = .next t)
    (h' : arith f src c s' = .next t') : t'.cycleCount = t.cycleCount + 1 := by
  obtain ⟨o, u, hu, rfl⟩ := arith_next.1 h
  obtain ⟨o', u', hu', rfl⟩ := arith_next.1 h'
  obtain ⟨w, hw, -⟩ := ha.readSource src o u hu
  rw [hu'] at hw
  cases hw
  have hs := readSource_ok hu
  have hs' := readSource_ok hu'
  have hcount : s'.cycleCount = s.cycleCount := by obtain ⟨x, rfl⟩ := ha; exact count_add_zero _
  have hd : decimalCycle u.p = 0 := by rw [hs.p, decimalCycle, h0]; rfl
  have hd' : decimalCycle u'.p = 1 := by rw [hs'.p, decimalCycle, h1]; rfl
  simp only [advance_cycleCount, setStatus_cycleCount, setReg_cycleCount, hs.cycleCount, hs'.cycleCount, hcount, hd, hd',
    BitVec.ofNat_add]
  simp [BitVec.add_assoc]

/-- An addition or subtraction that answers has its operand. -/
theorem shape_arith_of_next {i : Instr} {s t : State} (hm : i.mnemonic = .adc ∨ i.mnemonic = .sbc) (h : exec i s = .next t) :
    ∃ f src, shape i = .arith f src := by
  rw [exec_eq_shape] at h
  cases hsrc : modeSource i.mode with
  | none =>
    have hsh : shape i = .unknown i.opcode := by
      rcases hm with hm | hm <;> rw [shape_of_mnemonic hm, shapeOf, withSource, hsrc]
    rw [hsh] at h
    cases h
  | some src => rcases hm with hm | hm <;> exact ⟨_, src, (shape_of_mnemonic hm).trans (withSource_some hsrc)⟩

/-- Settles O24. -/
theorem decimalFlagReadOnlyByAddSubtractAndPushes : Obligations.DecimalFlagReadOnlyByAddSubtractAndPushes := by
  refine ⟨fun i s t0 t1 hm h0 h1 => ?_, fun i s t d hm h => ?_⟩
  · obtain ⟨f, src, hsh⟩ := shape_arith_of_next hm h0
    rw [exec_eq_shape, hsh] at h0 h1
    exact arith_decimalCycle (s := { s with p := { s.p with d := false } }) (s' := { s with p := { s.p with d := true } })
      ⟨true, by simp only [count_add_zero]; rfl⟩ rfl rfl h0 h1
  · have hl : ¬Looks .d i.mnemonic := by
      rintro (⟨-, hp⟩ | ⟨-, hp⟩)
      · exact hm (List.mem_append_left [Mnemonic.php, .brk] hp)
      · exact hm (List.mem_append_right [Mnemonic.adc, .sbc] hp)
    obtain ⟨e, he⟩ := exec_vary (by simp [inertFlags]) hl h d s.cycleCount
    rw [count_add_sub] at he
    exact ⟨e, he⟩

end Sys2Proof.Machine
